-- ==== Sys2Proof/Word.lean ====
section
/-! DEFINITION. The words of the UO-208: bytes, addresses, lines, and the index types of its numbered things. -/

namespace Sys2Proof

/-- One byte, on either serial link or in a line. -/
abbrev Byte := BitVec 8

/-- A byte address of either port (00_scope.md, Numbers: "Addresses are byte addresses, 32 bits wide"). -/
abbrev Addr := BitVec 32

/-- The 64 bytes of a line; byte `j` is bits `8j` to `8j + 7` (R29, R79). -/
abbrev LineData := BitVec 512

/-- A set of bit positions 0 to 511 of a line (R79, coverage). -/
abbrev BitSet512 := BitVec 512

/-- A set of byte positions 0 to 63 of a line (R79, R146, byte mask). -/
abbrev ByteMask := BitVec 64

/-- Index of an aperture, 0 to 7 (R1). -/
abbrev ApertureIdx := Fin 8

/-- Number of a combine slot, 0 to 15 (R79). -/
abbrev SlotIdx := Fin 16

/-- Number of a place of the deferred read table, 0 to 3 (R106). -/
abbrev PlaceIdx := Fin 4

/-- Tag of a line request, 0 to 7 (R149). -/
abbrev Tag := Fin 8

/-- Requester number, 0 to 3 (R38). -/
abbrev Requester := Fin 4

end Sys2Proof
end

