-- ==== Sys2Proof/Syntax.lean ====
section
/-! DEFINITION. The commands of the block: one constructor of Instr for each row of spec/opcode_table.json. -/

namespace Sys2Proof

/-- One data byte of a WRITE with its enable (R38); an enable that is off marks the byte as not written. -/
structure WriteByte where
  value   : Byte
  enabled : Bool
  deriving DecidableEq, Repr

/-- The kind of a system-port request (R38). -/
inductive RequestKind where
  | read
  | write
  deriving DecidableEq, Repr

/-- A request as the system port takes it, with all its data beats (R38). A READ carries no data. -/
structure Request where
  requester : Requester
  kind      : RequestKind
  address   : Addr
  beats     : Nat
  data      : List WriteByte
  deriving DecidableEq, Repr

/-- The outcome a completion carries (R147). -/
inductive MemOutcome where
  | ok
  | fault
  deriving DecidableEq, Repr

/-- A completion on the MEM_CPL group (R147): a tag, an outcome, and the 64 bytes of the line, which are used only
for a LINE_READ that completed OK. -/
structure Completion where
  tag     : Tag
  outcome : MemOutcome
  line    : LineData
  deriving DecidableEq, Repr

/-- What follows the code byte of a command frame: the L argument bytes as sent (so L is their number) and the
command check byte as received (R160, R161). -/
structure Frame where
  args  : List Byte
  check : Byte
  deriving DecidableEq, Repr

/-- The commands (events) of the part, in the order of spec/opcode_table.json. -/
inductive Instr where
  /-- RESET_N_ASSERTED (R180). -/
  | resetNAsserted
  /-- RESET_N_RELEASED (R179). -/
  | resetNReleased
  /-- HEADER_RECEIVED (R182): the 16 header bytes, in flash order. -/
  | headerReceived (header : List Byte)
  /-- IMAGE_READ_END (R182): the record bytes and the CRC bytes, in flash order. -/
  | imageReadEnd (rest : List Byte)
  /-- CHECKS_END (R183). -/
  | checksEnd
  /-- INSTALL_EVENT (R184). -/
  | installEvent
  /-- REQUEST (R42). -/
  | request (r : Request)
  /-- PLACEMENT (R68). -/
  | placement
  /-- GRANT (R154). -/
  | grant
  /-- FORWARD_READ_COMPLETION (R140). -/
  | forwardReadCompletion (c : Completion)
  /-- FORWARD_WRITE_COMPLETION (R141). -/
  | forwardWriteCompletion (c : Completion)
  /-- MERGE_READ_COMPLETION (R91). -/
  | mergeReadCompletion (c : Completion)
  /-- LINE_WRITE_COMPLETION (R93). -/
  | lineWriteCompletion (c : Completion)
  /-- IMMEDIATE_READ_COMPLETION (R115). -/
  | immediateReadCompletion (c : Completion)
  /-- GATHER_READ_COMPLETION (R121). -/
  | gatherReadCompletion (c : Completion)
  /-- CANCELLED_READ_COMPLETION (R129). -/
  | cancelledReadCompletion (c : Completion)
  /-- STRAY_COMPLETION (R152). -/
  | strayCompletion (c : Completion)
  /-- AGE_EXPIRY (R85): the time reaches the age deadline of this slot. -/
  | ageExpiry (slot : SlotIdx)
  /-- DISCARD_EXPIRY (R126): the time reaches the expiry time of the entry in this place. -/
  | discardExpiry (place : PlaceIdx)
  /-- SHORT_FRAME (R163). -/
  | shortFrame
  /-- UNKNOWN_CODE_FRAME (R161): the code byte and the rest of the frame. -/
  | unknownCodeFrame (code : Byte) (f : Frame)
  /-- GET_STATUS (R167). -/
  | getStatus (f : Frame)
  /-- GET_APERTURE (R168). -/
  | getAperture (f : Frame)
  /-- GET_EVENTS (R175). -/
  | getEvents (f : Frame)
  /-- DUMP_SLOTS (R169). -/
  | dumpSlots (f : Frame)
  /-- DUMP_DEFERRED (R170). -/
  | dumpDeferred (f : Frame)
  /-- STAGE (R7). -/
  | stage (f : Frame)
  /-- COMMIT (R8). -/
  | commit (f : Frame)
  /-- SUSPEND (R13). -/
  | suspend (f : Frame)
  /-- RESUME (R15). -/
  | resume (f : Frame)
  /-- RETIRE (R17). -/
  | retire (f : Frame)
  /-- FENCE (R96). -/
  | fence (f : Frame)
  /-- CLEAR_EVENTS (R176). -/
  | clearEvents (f : Frame)
  /-- SET_TIMING (R172). -/
  | setTiming (f : Frame)
  /-- SET_ATTENTION (R177). -/
  | setAttention (f : Frame)
  /-- FLASH_OPEN (R188). -/
  | flashOpen (f : Frame)
  /-- FLASH_XFER (R189), with the bytes the flash returns on FL_DI while the payload is shifted out. -/
  | flashXfer (f : Frame) (flashIn : List Byte)
  /-- FLASH_CLOSE (R190). -/
  | flashClose (f : Frame)
  /-- RESTART (R191). -/
  | restart (f : Frame)
  /-- SELECTION_START (R160): MG_SEL_N falls. -/
  | selectionStart
  /-- SELECTION_END (R163): MG_SEL_N rises. -/
  | selectionEnd
  /-- RESPONSE_END (R160): the response check byte has been shifted out. -/
  | responseEnd
  deriving DecidableEq, Repr

end Sys2Proof
end

