-- ==== Sys2Proof/Config.lean ====
section
/-! DEFINITION. What the spec fixes by number for this part, and the one free value the spec leaves open. -/

namespace Sys2Proof.Config

/-- R61: the intake queue holds up to 8 records. -/
def intakeCapacity : Nat := 8

/-- R132: the forward queue holds up to 6 entries. -/
def forwardCapacity : Nat := 6

/-- R117: the gather engine has at most four line reads outstanding. -/
def maxGatherReads : Nat := 4

/-- R112: an immediate read's footprint holds no more than 2 lines. -/
def maxImmediateLines : Nat := 2

/-- R160: the receiver keeps the first 40 argument bytes. -/
def keptArguments : Nat := 40

/-- R171: default age limit, 64 microseconds. -/
def defaultAgeLimit : Nat := 64

/-- R171: default discard limit, 2048 microseconds. -/
def defaultDiscardLimit : Nat := 2048

/-- R171: default allowance, 4 grants. -/
def defaultAllowance : Nat := 4

/-- R177: the default attention mask, every kind except TABLE_FULL. -/
def defaultAttention : Byte := 0xDF#8

/-- The size of the address space, one past FFFFFFFFh (R9, checks 6 and 7). -/
def addressSpace : Nat := 0x100000000

/-- FREE VALUE (DESIGN CHOICE, log 7). The level of FL_CLK or FL_DO after the bytes of a FLASH_XFER or of the loader's
read command, which the spec does not state; read with the counter State.freeCount, so that each reading is a value of
its own. -/
opaque linkLevel : Nat → Bool

end Sys2Proof.Config
end

