-- ==== Sys2Proof/Machine/State.lean ====
section
/-! DEFINITION. The state of the UO-208, block by block, and its value while RESET_N is asserted. -/

namespace Sys2Proof.Machine

/-! ### Aperture table (01_apertures.md) -/

/-- Counter-clockwise rotation from view to surface (R1, R28). -/
inductive Orientation where
  | r0
  | r90
  | r180
  | r270
  deriving DecidableEq, Repr

/-- Which request kinds the view window accepts (R1). -/
inductive Access where
  | readWrite
  | readOnly
  | writeOnly
  deriving DecidableEq, Repr

/-- How pass-through requests touching the surface are treated (R1). -/
inductive SurfaceAccess where
  | ordered
  | denied
  deriving DecidableEq, Repr

/-- Whether aperture writes mark overlapping deferred reads stale (R1). -/
inductive ReadOrdering where
  | strict
  | relaxed
  deriving DecidableEq, Repr

/-- The fields of an aperture record, all but its state (R1); the numeric fields have the widths of R6, so that the
staging record can hold values COMMIT refuses. -/
structure Fields where
  viewBase      : Addr
  surfaceBase   : Addr
  pitch         : BitVec 16
  width         : BitVec 16
  height        : BitVec 16
  depth         : Byte
  orientation   : Orientation
  mirror        : Bool
  access        : Access
  surfaceAccess : SurfaceAccess
  readOrdering  : ReadOrdering
  deriving DecidableEq, Repr

/-- The EMPTY values of R1: zero in every numeric field, the first listed value of every enumerated field. -/
def Fields.empty : Fields :=
  ⟨0#32, 0#32, 0#16, 0#16, 0#16, 0#8, .r0, false, .readWrite, .ordered, .strict⟩

/-- The four aperture states (R4). -/
inductive ApertureState where
  | empty
  | active
  | suspended
  | draining
  deriving DecidableEq, Repr

/-- A prior set, by its boundary (R64): the intake records whose acceptance position is at or below the boundary,
and, in the restricted form, that name the one aperture. -/
structure PriorSet where
  boundary : Nat
  only     : Option ApertureIdx
  deriving DecidableEq, Repr

/-- One aperture record (R1) with the prior set of its drain while it is DRAINING (R17). -/
structure Aperture where
  state  : ApertureState
  fields : Fields
  drain  : Option PriorSet
  deriving DecidableEq, Repr

/-- An EMPTY aperture record (R1, R5). -/
def Aperture.cleared : Aperture := ⟨.empty, Fields.empty, none⟩

/-! ### System port (03_system_port.md) -/

/-- The error details of the SYS_RESP group (R39). -/
inductive ErrorDetail where
  | shape
  | access
  | crossing
  | denied
  | fault
  deriving DecidableEq, Repr

/-- The answers of the system port (R39); DATA carries the beats in increasing address order. -/
inductive Answer where
  | accepted
  | data (bytes : List Byte)
  | retry
  | error (detail : ErrorDetail)
  deriving DecidableEq, Repr

/-- Which block serves a held read (R40): the gather engine, as an immediate read of an aperture, or the forward
queue. -/
inductive HeldService where
  | immediate (aperture : ApertureIdx)
  | passThrough
  deriving DecidableEq, Repr

/-- The read the port holds the bus for (R40). -/
structure HeldRead where
  requester : Requester
  address   : Addr
  beats     : Nat
  service   : HeldService
  deriving DecidableEq, Repr

/-- The port's own state (R40). -/
inductive PortState where
  | idle
  | holding (read : HeldRead)
  deriving DecidableEq, Repr

/-! ### Write intake and scatter (04_write_intake_and_scatter.md) -/

/-- The state of an intake record (R61). -/
inductive RecordState where
  | waiting
  | scattering
  deriving DecidableEq, Repr

/-- One intake record (R61). -/
structure IntakeRecord where
  position : Nat
  aperture : ApertureIdx
  address  : Addr
  beats    : Nat
  data     : List WriteByte
  state    : RecordState
  touched  : List SlotIdx
  deriving DecidableEq, Repr

/-- The states of the scatter engine (R67). -/
inductive EngineState where
  | idle
  | placing
  | waitSlot
  | waitMerge
  deriving DecidableEq, Repr

/-- The scatter cursor (R67): the byte of the SCATTERING record to place next, counted from its view address, and
the element or half-element within that byte. -/
structure Cursor where
  byte    : Nat
  element : Nat
  deriving DecidableEq, Repr

/-- The scatter engine (R67); IDLE has no cursor (R76). -/
structure Scatter where
  state  : EngineState
  cursor : Option Cursor
  deriving DecidableEq, Repr

/-! ### Combine store (05_combine_store.md) -/

/-- The states of a slot (R80). -/
inductive SlotState where
  | free
  | opened
  | merging
  | writing
  deriving DecidableEq, Repr

/-- What closed a slot (R79). -/
inductive FlushReason where
  | none
  | full
  | age
  | evict
  | fence
  | guard
  | gather
  | retire
  | restart
  deriving DecidableEq, Repr

/-- A slot's line request at the memory port (R79). -/
inductive SlotRequest where
  | none
  | ready
  | outstanding (tag : Tag)
  deriving DecidableEq, Repr

/-- One combine slot (R79). A FREE slot stands for no line and no aperture; it holds the values R169 reports. -/
structure Slot where
  state    : SlotState
  line     : Addr
  aperture : ApertureIdx
  coverage : BitSet512
  data     : LineData
  openTime : Nat
  mark     : Bool
  reason   : FlushReason
  mask     : ByteMask
  request  : SlotRequest
  deriving DecidableEq, Repr

/-- The FREE values of R79. -/
def Slot.cleared : Slot := ⟨.free, 0#32, 0, 0#512, 0#512, 0, false, .none, 0#64, .none⟩

/-- The fence states (R95). -/
inductive FenceState where
  | idle
  | pending
  | done
  | doneFault
  deriving DecidableEq, Repr

/-- The fence (R95): its state, its prior set while PENDING, and the fault indication. -/
structure Fence where
  state : FenceState
  prior : Option PriorSet
  fault : Bool
  deriving DecidableEq, Repr

/-- IDLE, with no prior set and the fault indication clear (R95). -/
def Fence.cleared : Fence := ⟨.idle, none, false⟩

/-! ### Deferred reads (06_deferred_reads.md) -/

/-- Bytes of a read being collected, up to 128: bit `8i + k` of `bits` is bit `k` of the byte `i` of the range, and
`filled` has the bits that have been received. Content outside `filled` is not defined (R106) and never handed out
(log 6). -/
structure ReadBuffer where
  bits   : BitVec 1024
  filled : BitVec 1024
  deriving DecidableEq, Repr

/-- A buffer that nothing has filled. -/
def ReadBuffer.blank : ReadBuffer := ⟨0#1024, 0#1024⟩

/-- The states of a deferred entry (R107). -/
inductive EntryState where
  | queued
  | gathering
  | ready
  | failed
  | cancelled
  deriving DecidableEq, Repr

/-- One deferred entry (R106). -/
structure Entry where
  requester : Requester
  address   : Addr
  beats     : Nat
  aperture  : ApertureIdx
  state     : EntryState
  stale     : Bool
  prior     : PriorSet
  buffer    : ReadBuffer
  expiry    : Option Nat
  deriving DecidableEq, Repr

/-- The line reads of one gather (R120, R121, R130): the footprint lines not yet issued in increasing address order,
the tags of the reads outstanding, the number of lines in the footprint, the number whose reads have completed, and
whether one of them faulted. -/
structure ReadJob where
  unissued    : List Addr
  outstanding : List Tag
  total       : Nat
  completed   : Nat
  faulted     : Bool
  deriving DecidableEq, Repr

/-- The gather engine (R117), with the place of the entry it serves; the immediate read it serves is the read the
system port holds. -/
inductive Gather where
  | idle
  | priorWait (place : PlaceIdx)
  | slotWait (place : PlaceIdx) (snapshot : List SlotIdx)
  | reading (place : PlaceIdx) (job : ReadJob)
  | cancelWait (place : PlaceIdx) (job : ReadJob)
  | immediate (job : ReadJob) (buffer : ReadBuffer)
  deriving DecidableEq, Repr

/-! ### Pass-through path (07_pass_through_path.md) -/

/-- The states of a forward queue entry (R133). -/
inductive ForwardState where
  | behind
  | guardPrior
  | guardSlots
  | issuing
  | returning
  deriving DecidableEq, Repr

/-- The mark of one line request of an entry (R132); a granted line of a read carries its tag (R150). -/
inductive LineMark where
  | unissued
  | granted (tag : Tag)
  | completed (outcome : MemOutcome)
  deriving DecidableEq, Repr

/-- One element of an entry's line list (R132, R134). -/
structure ForwardLine where
  line : Addr
  mark : LineMark
  deriving DecidableEq, Repr

/-- One forward queue entry (R132). It is guarded exactly when it has a prior set. -/
structure ForwardEntry where
  kind      : RequestKind
  requester : Requester
  address   : Addr
  beats     : Nat
  data      : List WriteByte
  prior     : Option PriorSet
  lines     : List ForwardLine
  snapshot  : List SlotIdx
  state     : ForwardState
  buffer    : ReadBuffer
  deriving DecidableEq, Repr

/-- One record of the list of outstanding writes (R132). -/
structure OutstandingWrite where
  tag       : Tag
  line      : Addr
  requester : Requester
  deriving DecidableEq, Repr

/-! ### Memory port (08_memory_port.md) -/

/-- The sources of the memory port (R149). -/
inductive Source where
  | forward
  | combine
  | gather
  deriving DecidableEq, Repr

/-- The kinds of line request (R146). -/
inductive LineKind where
  | read
  | write
  deriving DecidableEq, Repr

/-- The owner of an outstanding tag (R149). -/
inductive Owner where
  | readHead
  | outstandingWrite
  | slot (k : SlotIdx)
  | immediateRead
  | place (p : PlaceIdx)
  deriving DecidableEq, Repr

/-- The record of an OUTSTANDING tag (R149). -/
structure TagRecord where
  source : Source
  kind   : LineKind
  line   : Addr
  owner  : Owner
  deriving DecidableEq, Repr

/-- A request as it goes out on the MEM_REQ group (R146). -/
inductive LineRequest where
  | lineRead (tag : Tag) (line : Addr)
  | lineWrite (tag : Tag) (line : Addr) (data : LineData) (mask : ByteMask)
  deriving DecidableEq, Repr

/-! ### Management link and event unit (09_management_link.md) -/

/-- The frame receiver's states (R160); RESPONDING holds the response, fixed in the event of taking (R162). -/
inductive ReceiverPhase where
  | idle
  | receiving
  | responding (response : List Byte)
  | trailing
  deriving DecidableEq, Repr

/-- The frame receiver: its state, what it keeps of the frame (code, length, first 40 argument bytes; R160), and the
level of MG_SEL_N as it saw it last (R164). -/
structure Receiver where
  phase   : ReceiverPhase
  kept    : List Byte
  selHigh : Bool
  deriving DecidableEq, Repr

/-- The event kinds, numbered 0 to 7 in this order (R173). -/
inductive EventKind where
  | readFault
  | writeFault
  | mergeFault
  | discard
  | decodeError
  | tableFull
  | linkError
  | bootFault
  deriving DecidableEq, Repr

/-- The last-fault record when it holds something (R174). -/
structure LastFault where
  kind      : EventKind
  aperture  : Option ApertureIdx
  address   : Addr
  requester : Option Requester
  deriving DecidableEq, Repr

/-- The event unit (R173, R174, R177). Bit `k` of `flags` and `attention` is kind `k` (R195). -/
structure EventUnit where
  flags     : Byte
  counts    : Vector Byte 8
  lastFault : Option LastFault
  attention : Byte
  deriving DecidableEq, Repr

/-- Every flag clear, every count 0, the record holding nothing, the mask at its default (R173, R174, R177). -/
def EventUnit.cleared : EventUnit := ⟨0#8, Vector.replicate 8 0#8, none, Config.defaultAttention⟩

/-- The three timing settings (R171); the limits are in microseconds. -/
structure Timing where
  ageLimit     : Nat
  discardLimit : Nat
  allowance    : Nat
  deriving DecidableEq, Repr

/-- The defaults of R171. -/
def Timing.default : Timing :=
  ⟨Config.defaultAgeLimit, Config.defaultDiscardLimit, Config.defaultAllowance⟩

/-! ### Part control and boot loader (10_boot_loading_flash_access_and_restart.md) -/

/-- The part states (R179). -/
inductive PartState where
  | held
  | loading
  | run
  | quiescing
  deriving DecidableEq, Repr

/-- The boot outcomes (R180, R185). -/
inductive BootOutcome where
  | none
  | loaded (n : Nat)
  | blank
  | corrupt
  deriving DecidableEq, Repr

/-- The fields of the image header that R182 tests and R185 uses (R199). -/
structure Header where
  magic        : BitVec 32
  version      : Byte
  recordCount  : Byte
  ageLimit     : BitVec 16
  discardLimit : BitVec 16
  allowance    : Byte
  attention    : Byte
  deriving DecidableEq, Repr

/-- One boot record that has passed the checks (R199). -/
structure BootRecord where
  index  : ApertureIdx
  fields : Fields
  deriving DecidableEq, Repr

/-- The loader (R181): READING keeps the 16 header bytes once they have passed (R182), CHECKING holds the whole
image, INSTALLING holds the checked header and records. -/
inductive Loader where
  | idle
  | reading (header : Option (List Byte))
  | checking (image : List Byte)
  | installing (header : Header) (records : List BootRecord)
  deriving DecidableEq, Repr

/-- The flash session (R187): CLOSED, or OPEN with its select state. -/
inductive FlashSession where
  | closed
  | deselected
  | selected
  deriving DecidableEq, Repr

/-- The levels of the three outputs of the flash link (R180, R187); true is high. -/
structure FlashPins where
  selN : Bool
  clk  : Bool
  dout : Bool
  deriving DecidableEq, Repr

/-- The flash link at rest: FL_SEL_N high, FL_CLK low, FL_DO low (R180). -/
def FlashPins.rest : FlashPins := ⟨true, false, false⟩

/-! ### Outputs -/

/-- What the part drives in an event on its outputs: an answer on SYS_RESP, a line request on MEM_REQ, an edge of
FL_SEL_N (true: it rises), or bytes shifted out on FL_DO. -/
inductive Output where
  | answer (requester : Requester) (a : Answer)
  | memory (r : LineRequest)
  | flashSelect (high : Bool)
  | flashShift (bytes : List Byte)
  deriving DecidableEq, Repr

/-! ### The machine -/

/-- The state of the part, with the queue of commands that wait. -/
structure State where
  /-- The commands that wait, first in first out. The model's own field. -/
  pending     : List Instr
  /-- The time in microseconds of the event being taken (log 1). The model's own field. -/
  now         : Nat
  /-- R179. -/
  partState   : PartState
  /-- The READY line, high when true (R58). -/
  ready       : Bool
  /-- R181. -/
  loader      : Loader
  /-- R180, R185. -/
  outcome     : BootOutcome
  /-- R187. -/
  session     : FlashSession
  /-- R180, R187. -/
  flash       : FlashPins
  /-- The aperture table (R1). -/
  apertures   : Vector Aperture 8
  /-- The staging record (R6). -/
  staging     : Option Fields
  /-- R40. -/
  port        : PortState
  /-- The intake queue, oldest first (R61). -/
  intake      : List IntakeRecord
  /-- The acceptance position count: the position of the newest record ever accepted (R61, R76). -/
  acceptCount : Nat
  /-- R67. -/
  scatter     : Scatter
  /-- The sixteen combine slots (R79). -/
  slots       : Vector Slot 16
  /-- The open-order list, oldest first (R81). -/
  openOrder   : List SlotIdx
  /-- The flush-order list, oldest first (R90). -/
  flushOrder  : List SlotIdx
  /-- R95. -/
  fence       : Fence
  /-- The deferred read table (R106). -/
  places      : Vector (Option Entry) 4
  /-- The queued order, oldest first (R109). -/
  queuedOrder : List PlaceIdx
  /-- R117. -/
  gather      : Gather
  /-- The forward queue, oldest first (R132). -/
  forward     : List ForwardEntry
  /-- The list of outstanding writes (R132). -/
  posted      : List OutstandingWrite
  /-- The tag table (R149); none is FREE. -/
  tags        : Vector (Option TagRecord) 8
  /-- The arbiter's holder (R154). -/
  holder      : Source
  /-- The allowance used (R154). -/
  used        : Nat
  /-- R171. -/
  timing      : Timing
  /-- R173. -/
  events      : EventUnit
  /-- R160. -/
  receiver    : Receiver
  /-- What the part has driven on its outputs, newest first (log 5). The model's own field. -/
  trace       : List Output
  /-- The counter free values are read with (log 7). The model's own field. -/
  freeCount   : Nat
  deriving DecidableEq, Repr

/-- The part while RESET_N is asserted, every block at its power-on value: R5, R59, R76, R104, R131, R144, R158, R164,
R171, R173, R174, R177, R180. MG_SEL_N, the time, the trace and the counter of free values are the model's choice
(DESIGN CHOICE, log 4). -/
def State.reset : State where
  pending := []
  now := 0
  partState := .held
  ready := false
  loader := .idle
  outcome := .none
  session := .closed
  flash := FlashPins.rest
  apertures := Vector.replicate 8 Aperture.cleared
  staging := none
  port := .idle
  intake := []
  acceptCount := 0
  scatter := ⟨.idle, none⟩
  slots := Vector.replicate 16 Slot.cleared
  openOrder := []
  flushOrder := []
  fence := Fence.cleared
  places := Vector.replicate 4 none
  queuedOrder := []
  gather := .idle
  forward := []
  posted := []
  tags := Vector.replicate 8 none
  holder := .forward
  used := 0
  timing := Timing.default
  events := EventUnit.cleared
  receiver := ⟨.idle, [], true⟩
  trace := []
  freeCount := 0

/-! ### How a step can stop -/

/-- Faults. The spec gives no event that stops the part, so there is none: no meaning raises a fault (log 19). -/
inductive Fault where
  deriving DecidableEq, Repr

/-- Refusals. -/
inductive Refusal where
  /-- Raised by an arm of exec whose command has no meaning in the model yet. Safe: the model stops where the
  hardware goes on. No arm of exec raises it. -/
  | notModelled (mnemonic : String)
  deriving DecidableEq, Repr

end Sys2Proof.Machine
end

