-- ==== Sys2Proof/Machine/Flags.lean ====
section
/-! DEFINITION. The event unit: raising and clearing events, the last-fault record, ATTN (R173 to R178). -/

namespace Sys2Proof.Machine

/-- The number of a kind, its position in every event mask (R173). -/
def EventKind.number : EventKind → Fin 8
  | .readFault => 0
  | .writeFault => 1
  | .mergeFault => 2
  | .discard => 3
  | .decodeError => 4
  | .tableFull => 5
  | .linkError => 6
  | .bootFault => 7

/-- The kinds that overwrite the last-fault record (R173). -/
def EventKind.records : EventKind → Bool
  | .readFault => true
  | .writeFault => true
  | .mergeFault => true
  | .discard => true
  | .decodeError => true
  | .tableFull => false
  | .linkError => false
  | .bootFault => true

/-- The bit of a kind in an event mask (R195). -/
def EventKind.bit (k : EventKind) : Byte := 1#8 <<< k.number.val

/-- A count rises by one and saturates at 255 (R173). -/
def countUp (c : Byte) : Byte := if c = 255#8 then c else c + 1#8

/-- A raise (R173): the flag is set, the count rises with saturation, and for a kind that records the last-fault
record is overwritten. -/
def EventUnit.raise (e : EventUnit) (k : EventKind) (aperture : Option ApertureIdx) (address : Addr)
    (requester : Option Requester) : EventUnit :=
  { e with
    flags := e.flags ||| k.bit
    counts := e.counts.set k.number (countUp e.counts[k.number])
    lastFault := if k.records then some ⟨k, aperture, address, requester⟩ else e.lastFault }

/-- Bit `k` of an event mask. -/
def maskNames (mask : Byte) (k : Fin 8) : Bool := mask.getLsbD k.val

/-- CLEAR_EVENTS (R176): flags and counts of the named kinds, and the record when its kind is named. -/
def EventUnit.clear (e : EventUnit) (mask : Byte) : EventUnit :=
  { e with
    flags := e.flags &&& ~~~mask
    counts := Vector.ofFn (fun k : Fin 8 => if maskNames mask k then 0#8 else e.counts[k])
    lastFault := match e.lastFault with
      | none => none
      | some r => if maskNames mask r.kind.number then none else some r }

/-- R178: ATTN is high while at least one kind has both its flag set and its bit set in the attention mask. -/
def EventUnit.attn (e : EventUnit) : Bool := e.flags &&& e.attention != 0#8

/-- A raise in the machine. -/
def State.raise (s : State) (k : EventKind) (aperture : Option ApertureIdx) (address : Addr)
    (requester : Option Requester) : State :=
  { s with events := s.events.raise k aperture address requester }

/-- A raise of a kind that does not record (TABLE_FULL, LINK_ERROR; R174). -/
def State.raiseBare (s : State) (k : EventKind) : State := s.raise k none 0#32 none

/-- The ATTN line (R178). -/
def State.attn (s : State) : Bool := s.events.attn

/-- What MG_DO carries (R160, R164). -/
inductive MgDo where
  /-- MG_DO is not driven. -/
  | undriven
  /-- MG_DO is driven high, while RESET_N is asserted. -/
  | high
  /-- 00h for every byte. -/
  | zeros
  /-- The bytes of the response, in their order. -/
  | response (bytes : List Byte)
  /-- FFh for every further byte. -/
  | ones
  deriving DecidableEq, Repr

/-- MG_DO by the receiver's state (R160) and RESET_N (R164). -/
def State.mgDo (s : State) : MgDo :=
  match s.partState, s.receiver.phase with
  | .held, _ => .high
  | _, .idle => .undriven
  | _, .receiving => .zeros
  | _, .responding r => .response r
  | _, .trailing => .ones

end Sys2Proof.Machine
end

