-- ==== Sys2Proof/Machine/Codes.lean ====
section
/-! DEFINITION. The command table of the management link (R165, R166), its check byte (R161) and the CRC-32 of the
boot image (R183). -/

namespace Sys2Proof.Machine

/-- One row of R165: a command code and the values of L it allows; `anyState` says that R166 takes the command in
LOADING, RUN and QUIESCING alike, and otherwise it is taken in RUN alone. -/
structure CommandRow where
  code     : Byte
  minL     : Nat
  maxL     : Nat
  anyState : Bool
  deriving DecidableEq, Repr

def codeGetStatus : Byte := 0x01#8
def codeGetAperture : Byte := 0x02#8
def codeGetEvents : Byte := 0x03#8
def codeDumpSlots : Byte := 0x04#8
def codeDumpDeferred : Byte := 0x05#8
def codeStage : Byte := 0x20#8
def codeCommit : Byte := 0x21#8
def codeSuspend : Byte := 0x22#8
def codeResume : Byte := 0x23#8
def codeRetire : Byte := 0x24#8
def codeFence : Byte := 0x2C#8
def codeClearEvents : Byte := 0x30#8
def codeSetTiming : Byte := 0x31#8
def codeSetAttention : Byte := 0x32#8
def codeFlashOpen : Byte := 0x40#8
def codeFlashXfer : Byte := 0x41#8
def codeFlashClose : Byte := 0x42#8
def codeRestart : Byte := 0x5A#8

/-- R165, row by row, with the part states of R166. -/
def commandTable : List CommandRow :=
  [ ⟨codeGetStatus, 0, 0, true⟩, ⟨codeGetAperture, 1, 1, false⟩, ⟨codeGetEvents, 0, 0, true⟩,
    ⟨codeDumpSlots, 0, 0, true⟩, ⟨codeDumpDeferred, 0, 0, true⟩, ⟨codeStage, 20, 20, false⟩,
    ⟨codeCommit, 1, 1, false⟩, ⟨codeSuspend, 1, 1, false⟩, ⟨codeResume, 1, 1, false⟩,
    ⟨codeRetire, 1, 1, false⟩, ⟨codeFence, 0, 0, false⟩, ⟨codeClearEvents, 1, 1, true⟩,
    ⟨codeSetTiming, 5, 5, false⟩, ⟨codeSetAttention, 1, 1, false⟩, ⟨codeFlashOpen, 0, 0, false⟩,
    ⟨codeFlashXfer, 2, 33, false⟩, ⟨codeFlashClose, 0, 0, false⟩, ⟨codeRestart, 0, 0, false⟩ ]

/-- The row of a command code, if the code is in the command table. -/
def commandRow (code : Byte) : Option CommandRow :=
  commandTable.find? (fun row => row.code == code)

/-- One bit of the CRC-8 of R161: polynomial 07h, most significant bit first. -/
def crc8Bit (c : Byte) : Byte := if c.msb then (c <<< 1) ^^^ 0x07#8 else c <<< 1

/-- One byte of the CRC-8. -/
def crc8Byte (c b : Byte) : Byte :=
  crc8Bit (crc8Bit (crc8Bit (crc8Bit (crc8Bit (crc8Bit (crc8Bit (crc8Bit (c ^^^ b))))))))

/-- The CRC-8 of R161: initial value 00h, no reflection, no final XOR. -/
def crc8 (bytes : List Byte) : Byte := bytes.foldl crc8Byte 0#8

/-- One bit of the CRC-32 of R183, reflected, polynomial EDB88320h. -/
def crc32Bit (c : BitVec 32) : BitVec 32 :=
  if c.getLsbD 0 then (c >>> 1) ^^^ 0xEDB88320#32 else c >>> 1

/-- One byte of the CRC-32, least significant bit first. -/
def crc32Byte (c : BitVec 32) (b : Byte) : BitVec 32 :=
  crc32Bit (crc32Bit (crc32Bit (crc32Bit (crc32Bit (crc32Bit (crc32Bit (crc32Bit (c ^^^ b.setWidth 32))))))))

/-- The CRC-32 of R183: initial value and final XOR FFFFFFFFh. -/
def crc32 (bytes : List Byte) : BitVec 32 := bytes.foldl crc32Byte 0xFFFFFFFF#32 ^^^ 0xFFFFFFFF#32

/-- The check byte of a command frame covers the code, the length byte and the arguments (R161). -/
def frameCheck (code : Byte) (args : List Byte) : Byte :=
  crc8 (code :: BitVec.ofNat 8 args.length :: args)

end Sys2Proof.Machine
end

