-- ==== Sys2Proof/Machine/Bits.lean ====
section
/-! DEFINITION. Bit and byte helpers: vectors of bits from a rule, bytes of a line, big-endian numbers. -/

namespace Sys2Proof.Machine

/-- The number whose bit `i`, for `i < n`, is `f i`. -/
def bitsNat (f : Nat → Bool) : Nat → Nat
  | 0 => 0
  | n + 1 => bitsNat f n + (if f n then 2 ^ n else 0)

/-- The `w` bits given by `f`. -/
def bitsOf (w : Nat) (f : Nat → Bool) : BitVec w := BitVec.ofNat w (bitsNat f w)

/-- Byte `j` of a line is its bits `8j` to `8j + 7` (R29, R79). -/
def lineByte (l : LineData) (j : Nat) : Byte := l.extractLsb' (8 * j) 8

/-- The line whose byte `j` is `f j`. -/
def lineOf (f : Nat → Byte) : LineData := bitsOf 512 (fun p => (f (p / 8)).getLsbD (p % 8))

/-- The bit positions of the bytes in a byte mask. -/
def bitsOfMask (m : ByteMask) : LineData := bitsOf 512 (fun p => m.getLsbD (p / 8))

/-- The bytes all of whose eight bit positions are covered (R89). -/
def wholeBytes (c : BitSet512) : ByteMask := bitsOf 64 (fun j => lineByte c j == 0xFF#8)

/-- The bytes some but not all of whose bit positions are covered (R89). -/
def partBytes (c : BitSet512) : ByteMask :=
  bitsOf 64 (fun j => lineByte c j != 0xFF#8 && lineByte c j != 0#8)

/-- How many positions a set of bit positions holds (R103). -/
def bitCount (c : BitSet512) : Nat := (List.range 512).countP (fun p => c.getLsbD p)

/-- The `n` bit positions from `pos` up. -/
def bitSpan (pos n : Nat) : BitSet512 := bitsOf 512 (fun p => pos ≤ p && p < pos + n)

/-- The line with the `n` low bits of `value` at the bit positions from `pos` up, and 0 elsewhere. -/
def bitsAt (pos n : Nat) (value : Nat) : LineData :=
  bitsOf 512 (fun p => pos ≤ p && p < pos + n && value.testBit (p - pos))

/-- A number read from bytes, most significant byte first (R195). -/
def numberOf (bytes : List Byte) : Nat := bytes.foldl (fun n b => n * 256 + b.toNat) 0

/-- A number written as `k` bytes, most significant byte first (R195). -/
def bytesOf : Nat → Nat → List Byte
  | 0, _ => []
  | k + 1, n => BitVec.ofNat 8 (n / 256 ^ k) :: bytesOf k n

/-- `n` bytes from position `i` of a list of bytes. -/
def slice (bytes : List Byte) (i n : Nat) : List Byte := (bytes.drop i).take n

/-- Whether two half-open ranges share at least one address (R2, R10). -/
def rangesMeet (a b c d : Nat) : Bool := decide (max a c < min b d)

end Sys2Proof.Machine
end

