-- ==== Sys2Proof/Machine/Translation.lean ====
section
/-! DEFINITION. Derived quantities of an aperture (R2), the validity checks (R9), and coordinate translation
(02_coordinate_translation.md): a function of one aperture record and a position, without state (R24). -/

namespace Sys2Proof.Machine

/-! ### Derived quantities (R2) -/

def Fields.w (f : Fields) : Nat := f.width.toNat
def Fields.h (f : Fields) : Nat := f.height.toNat
def Fields.bitsPerElement (f : Fields) : Nat := f.depth.toNat

/-- Orientation R90 or R270, which exchange width and height. -/
def Fields.turned (f : Fields) : Bool :=
  match f.orientation with
  | .r0 => false
  | .r180 => false
  | .r90 => true
  | .r270 => true

/-- Stored width Ws (R2). -/
def Fields.ws (f : Fields) : Nat := if f.turned then f.h else f.w

/-- Stored height Hs (R2). -/
def Fields.hs (f : Fields) : Nat := if f.turned then f.w else f.h

/-- View pitch: W times depth over 8 bytes (R2). -/
def Fields.viewPitch (f : Fields) : Nat := f.w * f.bitsPerElement / 8

/-- One past the view window (R2). -/
def Fields.viewEnd (f : Fields) : Nat := f.viewBase.toNat + f.w * f.h * f.bitsPerElement / 8

/-- Surface pitch: pitch times 64 bytes (R2). -/
def Fields.surfacePitch (f : Fields) : Nat := f.pitch.toNat * 64

/-- One past the surface extent (R2). -/
def Fields.surfaceEnd (f : Fields) : Nat := f.surfaceBase.toNat + f.surfacePitch * f.hs

/-- Whether the byte addresses from `a` up to `b` lie wholly in the view window (R2, R45). -/
def Fields.viewHolds (f : Fields) (a b : Nat) : Bool := f.viewBase.toNat ≤ a && b ≤ f.viewEnd

/-- Whether they share an address with the view window (R2, R45). -/
def Fields.viewMeets (f : Fields) (a b : Nat) : Bool := rangesMeet f.viewBase.toNat f.viewEnd a b

/-- Whether they share an address with the surface extent (R2, R51). -/
def Fields.surfaceMeets (f : Fields) (a b : Nat) : Bool := rangesMeet f.surfaceBase.toNat f.surfaceEnd a b

/-- Whether two records' view windows overlap (R10). -/
def Fields.viewsOverlap (f g : Fields) : Bool := f.viewMeets g.viewBase.toNat g.viewEnd

/-- Whether two records' surface extents overlap (R10). -/
def Fields.surfacesOverlap (f g : Fields) : Bool := f.surfaceMeets g.surfaceBase.toNat g.surfaceEnd

/-! ### Validity checks (R9) -/

/-- The details of an INVALID answer: the eight validity details of R9, INDEX (R8) and FIELD (R7). -/
inductive Detail where
  | width
  | height
  | depth
  | rowMultiple
  | pitchFit
  | viewExtent
  | surfaceExtent
  | alignment
  | index
  | field
  deriving DecidableEq, Repr

/-- The detail codes (R9, R161). -/
def Detail.code : Detail → Byte
  | .width => 0x01#8
  | .height => 0x02#8
  | .depth => 0x03#8
  | .rowMultiple => 0x04#8
  | .pitchFit => 0x05#8
  | .viewExtent => 0x06#8
  | .surfaceExtent => 0x07#8
  | .alignment => 0x08#8
  | .index => 0x10#8
  | .field => 0x11#8

/-- The checks of R9 in their order: a detail, and whether its check passes. -/
def Fields.checks (f : Fields) : List (Detail × Bool) :=
  [ (.width, 1 ≤ f.w && f.w ≤ 8192),
    (.height, 1 ≤ f.h && f.h ≤ 8192),
    (.depth, [1, 2, 4, 8, 16].contains f.bitsPerElement),
    (.rowMultiple, f.w * f.bitsPerElement % 8 == 0),
    (.pitchFit, 1 ≤ f.pitch.toNat && f.pitch.toNat ≤ 1024 &&
      f.ws * f.bitsPerElement ≤ f.pitch.toNat * 64 * 8),
    (.viewExtent, f.viewEnd ≤ Config.addressSpace),
    (.surfaceExtent, f.surfaceEnd ≤ Config.addressSpace),
    (.alignment, f.viewBase.toNat % 0x1000 == 0 && f.surfaceBase.toNat % 0x40 == 0) ]

/-- The detail of the first check that fails, if one does (R9). -/
def Fields.invalid (f : Fields) : Option Detail :=
  (f.checks.find? (fun c => !c.2)).map (fun c => c.1)

/-- Whether the fields pass every check of R9. -/
def Fields.valid (f : Fields) : Bool := f.invalid.isNone

/-! ### From view to surface (R25 to R29) -/

/-- The view element that holds bit `k` of the view byte at offset `b`, and the bit within that element (R25, R26):
row bit `8c + k` of view row `y` lies in element `x = (8c + k) div depth`, at bit `(8c + k) mod depth`. -/
def Fields.elementAt (f : Fields) (b k : Nat) : (Nat × Nat) × Nat :=
  let y := b / f.viewPitch
  let rowBit := 8 * (b % f.viewPitch) + k
  ((rowBit / f.bitsPerElement, y), rowBit % f.bitsPerElement)

/-- The reversed column (R27). -/
def Fields.mirrored (f : Fields) (x : Nat) : Nat := if f.mirror then f.w - 1 - x else x

/-- The stored column and row of the element at view column `x` and row `y` (R27, R28). -/
def Fields.storedAt (f : Fields) (x y : Nat) : Nat × Nat :=
  let x' := f.mirrored x
  match f.orientation with
  | .r0 => (x', y)
  | .r90 => (y, f.w - 1 - x')
  | .r180 => (f.w - 1 - x', f.h - 1 - y)
  | .r270 => (f.h - 1 - y, x')

/-- The stored bit address at which the stored element `(u, v)` begins (R29). -/
def Fields.storedElementBit (f : Fields) (u v : Nat) : Nat :=
  f.surfaceBase.toNat * 8 + v * (f.pitch.toNat * 512) + u * f.bitsPerElement

/-- The stored bit address of bit `k` of the view byte at offset `b` (R25 to R29, R32). -/
def Fields.storedBit (f : Fields) (b k : Nat) : Nat :=
  let ((x, y), e) := f.elementAt b k
  let (u, v) := f.storedAt x y
  f.storedElementBit u v + e

/-- The line address of a stored bit address (R29). -/
def lineOfBit (s : Nat) : Addr := BitVec.ofNat 32 (s / 512 * 64)

/-- The bit position of a stored bit address within its line (R29). -/
def posOfBit (s : Nat) : Nat := s % 512

/-! ### Placements (R32, R68) -/

/-- How many placements one enabled view byte makes: its elements, or its one half-element at depth 16 (R68). -/
def Fields.placementsPerByte (f : Fields) : Nat :=
  if f.bitsPerElement ≤ 8 then 8 / f.bitsPerElement else 1

/-- How many bits one placement has: an element, or half of one at depth 16 (R32). -/
def Fields.placementBits (f : Fields) : Nat := min f.bitsPerElement 8

/-- The stored bit address of the first bit of placement `j` of the view byte at offset `b` (R32). -/
def Fields.placementBit (f : Fields) (b j : Nat) : Nat := f.storedBit b (j * f.placementBits)

/-- The bits that placement `j` takes from a view byte (R26, R32). -/
def Fields.placementValue (f : Fields) (v : Byte) (j : Nat) : Nat :=
  v.toNat / 2 ^ (j * f.placementBits) % 2 ^ f.placementBits

/-! ### Footprints (R36) -/

/-- Insert a line into a list of distinct lines in increasing address order. -/
def insertLine (l : Addr) : List Addr → List Addr
  | [] => [l]
  | m :: ms => if l.toNat < m.toNat then l :: m :: ms else if l = m then m :: ms else m :: insertLine l ms

/-- The lines that the view bytes at the given offsets reach, distinct and in increasing order (R36). -/
def Fields.footprintOf (f : Fields) (offsets : List Nat) : List Addr :=
  (offsets.flatMap (fun b => (List.range f.placementsPerByte).map
    (fun j => lineOfBit (f.placementBit b j)))).foldr insertLine []

/-- The view offset of a system address in the window (R25). -/
def Fields.viewOffset (f : Fields) (a : Addr) : Nat := a.toNat - f.viewBase.toNat

/-- The footprint of a read range: every byte counts (R36). -/
def Fields.footprint (f : Fields) (a : Addr) (beats : Nat) : List Addr :=
  f.footprintOf ((List.range (8 * beats)).map (fun j => f.viewOffset a + j))

/-- The footprint of a write: its enabled bytes only (R36). -/
def Fields.writeFootprint (f : Fields) (a : Addr) (data : List WriteByte) : List Addr :=
  f.footprintOf (((List.range data.length).filter (fun j => (data[j]?.map (·.enabled)).getD false)).map
    (fun j => f.viewOffset a + j))

/-! ### From surface to view (R35) -/

/-- The view element stored at `(u, v)` (R35). -/
def Fields.viewAt (f : Fields) (u v : Nat) : Nat × Nat :=
  match f.orientation, f.mirror with
  | .r0, false => (u, v)
  | .r0, true => (f.w - 1 - u, v)
  | .r90, false => (f.w - 1 - v, u)
  | .r90, true => (v, u)
  | .r180, false => (f.w - 1 - u, f.h - 1 - v)
  | .r180, true => (u, f.h - 1 - v)
  | .r270, false => (v, f.h - 1 - u)
  | .r270, true => (f.w - 1 - v, f.h - 1 - u)

/-- The view offset and the bit within that view byte to which bit position `p` of a line of the surface belongs;
none is "tail" (R35). -/
def Fields.inverse (f : Fields) (line : Addr) (p : Nat) : Option (Nat × Nat) :=
  let rel := line.toNat - f.surfaceBase.toNat
  let v := rel / f.surfacePitch
  let r := rel % f.surfacePitch * 8 + p
  if f.ws * f.bitsPerElement ≤ r then none
  else
    let e := r % f.bitsPerElement
    let (x, y) := f.viewAt (r / f.bitsPerElement) v
    if f.bitsPerElement ≤ 8 then
      some (y * f.viewPitch + x * f.bitsPerElement / 8, x * f.bitsPerElement % 8 + e)
    else
      some (y * f.viewPitch + 2 * x + e / 8, e % 8)

/-! ### Reading back (R34) -/

/-- Put bit `q` of a read. -/
def ReadBuffer.put (b : ReadBuffer) (q : Nat) (v : Bool) : ReadBuffer :=
  let one : BitVec 1024 := 1#1024 <<< q
  ⟨if v then b.bits ||| one else b.bits &&& ~~~one, b.filled ||| one⟩

/-- The first `n` bytes of a read, in increasing address order. -/
def ReadBuffer.bytes (b : ReadBuffer) (n : Nat) : List Byte :=
  (List.range n).map (fun i => b.bits.extractLsb' (8 * i) 8)

/-- The bits of a returned line go into the view bytes of the range from offset `b0`, `n` bytes long, by the forward
map of R34: view bit `k` of byte `b0 + i` takes the stored bit that R29 names, when this line holds it. -/
def Fields.fillForward (f : Fields) (b0 n : Nat) (line : Addr) (l : LineData) (buf : ReadBuffer) : ReadBuffer :=
  let hit := fun q => decide (q < 8 * n) && lineOfBit (f.storedBit (b0 + q / 8) (q % 8)) == line
  let bit := fun q => l.getLsbD (posOfBit (f.storedBit (b0 + q / 8) (q % 8)))
  ⟨bitsOf 1024 (fun q => if hit q then bit q else buf.bits.getLsbD q),
   bitsOf 1024 (fun q => hit q || buf.filled.getLsbD q)⟩

/-- One bit of a returned line goes to its one place by the inverse map, when it belongs to a view byte of the range
(R35, R120); tail bits and bits of other elements are ignored. -/
def Fields.fillBit (f : Fields) (b0 n : Nat) (line : Addr) (l : LineData) (buf : ReadBuffer) (p : Nat) : ReadBuffer :=
  match f.inverse line p with
  | none => buf
  | some (b, k) => if b0 ≤ b ∧ b < b0 + n then buf.put (8 * (b - b0) + k) (l.getLsbD p) else buf

/-- Every bit of a returned line that belongs to a view byte of the range goes to the place the inverse map gives it
(R120). -/
def Fields.fillInverse (f : Fields) (b0 n : Nat) (line : Addr) (l : LineData) (buf : ReadBuffer) : ReadBuffer :=
  (List.range 512).foldl (f.fillBit b0 n line l) buf

end Sys2Proof.Machine
end

