-- ==== Sys2Proof/Machine/Operands.lean ====
section
/-! DEFINITION. The operand forms: the aperture image (R198), the boot image (R199), the argument bytes of the
command frames (R197), and the layouts of the reported images' items (R195, R200). -/

namespace Sys2Proof.Machine

/-- Byte `i` of a list of bytes. -/
def byteAt (bytes : List Byte) (i : Nat) : Byte := bytes.getD i 0#8

/-! ### The aperture image (R198) -/

def orientationOf (b : Byte) : Option Orientation :=
  if b = 0#8 then some .r0 else if b = 1#8 then some .r90
  else if b = 2#8 then some .r180 else if b = 3#8 then some .r270 else none

def mirrorOf (b : Byte) : Option Bool :=
  if b = 0#8 then some false else if b = 1#8 then some true else none

def accessOf (b : Byte) : Option Access :=
  if b = 0#8 then some .readWrite else if b = 1#8 then some .readOnly
  else if b = 2#8 then some .writeOnly else none

def surfaceAccessOf (b : Byte) : Option SurfaceAccess :=
  if b = 0#8 then some .ordered else if b = 1#8 then some .denied else none

def readOrderingOf (b : Byte) : Option ReadOrdering :=
  if b = 0#8 then some .strict else if b = 1#8 then some .relaxed else none

def Orientation.code : Orientation → Byte
  | .r0 => 0#8
  | .r90 => 1#8
  | .r180 => 2#8
  | .r270 => 3#8

def Access.code : Access → Byte
  | .readWrite => 0#8
  | .readOnly => 1#8
  | .writeOnly => 2#8

def SurfaceAccess.code : SurfaceAccess → Byte
  | .ordered => 0#8
  | .denied => 1#8

def ReadOrdering.code : ReadOrdering → Byte
  | .strict => 0#8
  | .relaxed => 1#8

/-- A flag or mark: 00h clear, 01h set (R195). -/
def flagByte (b : Bool) : Byte := if b then 1#8 else 0#8

/-- The fields of an aperture image of 20 bytes; none when an enumerated field holds an undefined code (R7, R196,
R198). The numeric fields are taken at their full width, whatever their value. -/
def fieldsOfImage (im : List Byte) : Option Fields := do
  let o ← orientationOf (byteAt im 15)
  let m ← mirrorOf (byteAt im 16)
  let a ← accessOf (byteAt im 17)
  let s ← surfaceAccessOf (byteAt im 18)
  let r ← readOrderingOf (byteAt im 19)
  return {
    viewBase := BitVec.ofNat 32 (numberOf (slice im 0 4))
    surfaceBase := BitVec.ofNat 32 (numberOf (slice im 4 4))
    pitch := BitVec.ofNat 16 (numberOf (slice im 8 2))
    width := BitVec.ofNat 16 (numberOf (slice im 10 2))
    height := BitVec.ofNat 16 (numberOf (slice im 12 2))
    depth := byteAt im 14
    orientation := o
    mirror := m
    access := a
    surfaceAccess := s
    readOrdering := r }

/-- The aperture image of a set of fields (R198). -/
def Fields.image (f : Fields) : List Byte :=
  bytesOf 4 f.viewBase.toNat ++ bytesOf 4 f.surfaceBase.toNat ++ bytesOf 2 f.pitch.toNat ++
    bytesOf 2 f.width.toNat ++ bytesOf 2 f.height.toNat ++
    [f.depth, f.orientation.code, flagByte f.mirror, f.access.code, f.surfaceAccess.code, f.readOrdering.code]

/-- The aperture index an argument byte names, if it is 0 to 7. -/
def indexOf (b : Byte) : Option ApertureIdx :=
  if h : b.toNat < 8 then some ⟨b.toNat, h⟩ else none

/-! ### The boot image (R199) -/

/-- The fields of the 16 header bytes (R199). -/
def headerOf (bytes : List Byte) : Header where
  magic := BitVec.ofNat 32 (numberOf (slice bytes 0 4))
  version := byteAt bytes 4
  recordCount := byteAt bytes 5
  ageLimit := BitVec.ofNat 16 (numberOf (slice bytes 6 2))
  discardLimit := BitVec.ofNat 16 (numberOf (slice bytes 8 2))
  allowance := byteAt bytes 10
  attention := byteAt bytes 11

/-- The outcomes by which a header ends the read (R182): BLANK, or CORRUPT at the flash offset of the failing field
(R199); none when the read goes on. -/
inductive HeaderVerdict where
  | blank
  | corrupt (offset : Nat)
  | goesOn
  deriving DecidableEq, Repr

/-- The tests of R182 in their order, with the offsets of R199. -/
def Header.verdict (h : Header) : HeaderVerdict :=
  if h.magic = 0xFFFFFFFF#32 then .blank
  else if h.magic ≠ 0x554C564E#32 then .corrupt 0
  else if h.version ≠ 0x01#8 then .corrupt 4
  else if 8 < h.recordCount.toNat then .corrupt 5
  else if 4095 < h.ageLimit.toNat then .corrupt 6
  else if h.discardLimit.toNat < 16 then .corrupt 8
  else if h.allowance.toNat < 1 ∨ 15 < h.allowance.toNat then .corrupt 10
  else .goesOn

/-- The timing settings a header carries (R185). -/
def Header.timing (h : Header) : Timing := ⟨h.ageLimit.toNat, h.discardLimit.toNat, h.allowance.toNat⟩

/-- The bytes of boot record `k` of an image (R199). -/
def recordBytes (image : List Byte) (k : Nat) : List Byte := slice image (16 + 24 * k) 24

/-- Check 2 of R183 on one record: index at most 7, enumerated fields defined, the validity checks of R9. -/
def bootRecordOf (bytes : List Byte) : Option BootRecord := do
  let i ← indexOf (byteAt bytes 0)
  let f ← fieldsOfImage (bytes.drop 4)
  if f.valid then return ⟨i, f⟩ else none

/-- Check 2 of R183: the records in flash order, or the number of the first that fails. -/
def checkRecords (image : List Byte) (n : Nat) : Nat → Except Nat (List BootRecord)
  | 0 => .ok []
  | todo + 1 =>
    let k := n - (todo + 1)
    match bootRecordOf (recordBytes image k) with
    | none => .error k
    | some r =>
      match checkRecords image n todo with
      | .error j => .error j
      | .ok rs => .ok (r :: rs)

/-- The number of the first record that stands in the relation `bad` to an earlier one (checks 3 and 4 of R183);
`before` holds the earlier records and `k` counts them. -/
def firstClash (bad : BootRecord → BootRecord → Bool) (before : List BootRecord) (k : Nat) :
    List BootRecord → Option Nat
  | [] => none
  | r :: rs => if before.any (fun e => bad e r) then some k else firstClash bad (r :: before) (k + 1) rs

/-- Check 3 of R183. -/
def sameIndex (a b : BootRecord) : Bool := a.index == b.index

/-- Check 4 of R183, the law of R10 among the records of the image. -/
def recordsOverlap (a b : BootRecord) : Bool :=
  a.fields.viewsOverlap b.fields || a.fields.surfacesOverlap b.fields

/-- The checks of R183 in their order: the checked records, or the flash offset of the first item found wrong. -/
def checkImage (image : List Byte) : Except Nat (List BootRecord) :=
  let n := (headerOf image).recordCount.toNat
  if crc32 (image.take (16 + 24 * n)) ≠ BitVec.ofNat 32 (numberOf (slice image (16 + 24 * n) 4)) then
    .error (16 + 24 * n)
  else
    match checkRecords image n n with
    | .error k => .error (16 + 24 * k)
    | .ok rs =>
      match firstClash sameIndex [] 0 rs with
      | some k => .error (16 + 24 * k)
      | none =>
        match firstClash recordsOverlap [] 0 rs with
        | some k => .error (16 + 24 * k)
        | none => .ok rs

/-! ### Arguments of the command frames (R197) -/

/-- The timing settings of SET_TIMING's five argument bytes (R172, R197). -/
def timingOf (args : List Byte) : Timing :=
  ⟨numberOf (slice args 0 2), numberOf (slice args 2 2), (byteAt args 4).toNat⟩

/-- R172: age limit at most 4095, discard limit at least 16, allowance 1 to 15. -/
def Timing.acceptable (t : Timing) : Bool :=
  t.ageLimit ≤ 4095 && 16 ≤ t.discardLimit && 1 ≤ t.allowance && t.allowance ≤ 15

/-! ### Codes of the reported images (R200) -/

/-- The part state byte. No frame is answered in HELD (R179), so its 00h is reported in no run (DESIGN CHOICE, log 20). -/
def PartState.code : PartState → Byte
  | .held => 0#8
  | .loading => 1#8
  | .run => 2#8
  | .quiescing => 3#8

def BootOutcome.code : BootOutcome → Byte
  | .none => 0#8
  | .loaded _ => 1#8
  | .blank => 2#8
  | .corrupt => 3#8

/-- The "records loaded" byte: n for LOADED(n), 00h otherwise. -/
def BootOutcome.records : BootOutcome → Byte
  | .none => 0#8
  | .loaded n => BitVec.ofNat 8 n
  | .blank => 0#8
  | .corrupt => 0#8

def ApertureState.code : ApertureState → Byte
  | .empty => 0#8
  | .active => 1#8
  | .suspended => 2#8
  | .draining => 3#8

def FenceState.code : FenceState → Byte
  | .idle => 0#8
  | .pending => 1#8
  | .done => 2#8
  | .doneFault => 3#8

def FlashSession.code : FlashSession → Byte
  | .closed => 0#8
  | .deselected => 1#8
  | .selected => 1#8

def SlotState.code : SlotState → Byte
  | .free => 0#8
  | .opened => 1#8
  | .merging => 2#8
  | .writing => 3#8

def FlushReason.code : FlushReason → Byte
  | .none => 0#8
  | .full => 1#8
  | .age => 2#8
  | .evict => 3#8
  | .fence => 4#8
  | .guard => 5#8
  | .gather => 6#8
  | .retire => 7#8
  | .restart => 8#8

def EntryState.code : EntryState → Byte
  | .queued => 1#8
  | .gathering => 2#8
  | .ready => 3#8
  | .failed => 4#8
  | .cancelled => 5#8

/-- The error detail codes of the SYS_RESP group (R39). -/
def ErrorDetail.code : ErrorDetail → Nat
  | .shape => 1
  | .access => 2
  | .crossing => 3
  | .denied => 4
  | .fault => 5

end Sys2Proof.Machine
end

