-- ==== Sys2Proof/Machine/Ops.lean ====
section
/-! DEFINITION. The shared operations of the blocks: slots and their closing, prior sets, the forward queue's guard,
the gather engine, drains, the fence, quiescing, the scatter engine's placement, and the passage of time. -/

namespace Sys2Proof.Machine

/-! ### Reading and writing numbered things -/

def State.aperture (s : State) (i : ApertureIdx) : Aperture := s.apertures[i]

def State.slot (s : State) (k : SlotIdx) : Slot := s.slots[k]

def State.place (s : State) (p : PlaceIdx) : Option Entry := s.places[p]

def State.tag (s : State) (t : Tag) : Option TagRecord := s.tags[t]

def State.setAperture (s : State) (i : ApertureIdx) (a : Aperture) : State :=
  { s with apertures := s.apertures.set i a }

def State.setSlot (s : State) (k : SlotIdx) (x : Slot) : State := { s with slots := s.slots.set k x }

def State.setPlace (s : State) (p : PlaceIdx) (e : Option Entry) : State :=
  { s with places := s.places.set p e }

def State.setTag (s : State) (t : Tag) (r : Option TagRecord) : State := { s with tags := s.tags.set t r }

/-- The part drives an output (log 5). -/
def State.emit (s : State) (o : Output) : State := { s with trace := o :: s.trace }

/-- The system port gives an answer (R39). -/
def State.answer (s : State) (r : Requester) (a : Answer) : State := s.emit (.answer r a)

/-- One past the last byte address of `beats` beats from an address (R38). -/
def rangeEnd (a : Addr) (beats : Nat) : Nat := a.toNat + 8 * beats

/-! ### Prior sets (R64) -/

/-- A prior set taken now: its boundary is the position of the newest record ever accepted, which is that of the
newest record present when there is one (R64, log 9). -/
def State.takePrior (s : State) (only : Option ApertureIdx) : PriorSet := ⟨s.acceptCount, only⟩

/-- Whether a prior set holds this intake record (R64). -/
def PriorSet.holds (ps : PriorSet) (r : IntakeRecord) : Bool :=
  r.position ≤ ps.boundary && (match ps.only with | none => true | some i => r.aperture == i)

/-- Whether no member of the prior set is left in the intake (R64). -/
def PriorSet.emptyIn (ps : PriorSet) (intake : List IntakeRecord) : Bool := intake.all (fun r => !ps.holds r)

/-! ### The combine store (R79 to R94) -/

/-- The slots holding a line: every non-FREE slot whose line address is that line (R82), in slot order. -/
def State.slotsHolding (s : State) (lines : List Addr) : List SlotIdx :=
  (List.finRange 16).filter (fun k => (s.slot k).state != .free && lines.contains (s.slot k).line)

/-- The lowest-numbered FREE slot (R69). -/
def State.firstFreeSlot (s : State) : Option SlotIdx :=
  (List.finRange 16).find? (fun k => (s.slot k).state == .free)

/-- The slot in the given state that holds a line. -/
def State.slotWith (s : State) (st : SlotState) (line : Addr) : Option SlotIdx :=
  (List.finRange 16).find? (fun k => (s.slot k).state == st && (s.slot k).line == line)

/-- The SCATTERING record, which is the oldest in the intake (R61). -/
def State.scattering (s : State) : Option IntakeRecord :=
  match s.intake with
  | [] => none
  | r :: _ => if r.state = .scattering then some r else none

/-- Whether the pending fence's prior set holds this record (R95). -/
def Fence.waitsFor (f : Fence) (r : IntakeRecord) : Bool :=
  f.state == .pending && (match f.prior with | none => false | some ps => ps.holds r)

/-- R99: the slot is on the touched-slot list of the SCATTERING record, and that record belongs to the prior set of
the pending fence. -/
def State.fenceCatches (s : State) (k : SlotIdx) : Bool :=
  match s.scattering with
  | none => false
  | some r => s.fence.waitsFor r && r.touched.contains k

/-- A closed slot's fields (R89): MERGING with a merge read ready when some byte is partly covered, otherwise WRITING
with its line write ready; the mask holds every byte that is wholly or partly covered. -/
def Slot.closed (x : Slot) (reason : FlushReason) (marked : Bool) : Slot :=
  { x with
    state := if partBytes x.coverage = 0#64 then .writing else .merging
    mask := wholeBytes x.coverage ||| partBytes x.coverage
    request := .ready
    reason := reason
    mark := x.mark || marked }

/-- The record without a slot on its touched-slot list (R71). -/
def IntakeRecord.untouch (r : IntakeRecord) (k : SlotIdx) : IntakeRecord := { r with touched := r.touched.erase k }

/-- Close one OPEN slot (R89, R99). A slot in any other state is left as it is (section 5.3). -/
def State.closeSlot (s : State) (k : SlotIdx) (reason : FlushReason) : State :=
  if (s.slot k).state = .opened then
    { s.setSlot k ((s.slot k).closed reason (s.fenceCatches k)) with
      openOrder := s.openOrder.erase k
      flushOrder := s.flushOrder ++ [k]
      intake := s.intake.map (fun r => r.untouch k) }
  else s

/-- One cause that closes slots in an event: a reason and the slots it names (R87, R88). -/
structure Cause where
  reason : FlushReason
  slots  : List SlotIdx
  deriving DecidableEq, Repr

/-- The order of R88 in which the recorded reason is chosen. -/
def reasonOrder : List FlushReason :=
  [.full, .fence, .retire, .restart, .guard, .gather, .evict, .age]

/-- Whether one of the causes names the slot for this reason. -/
def namedFor (causes : List Cause) (k : SlotIdx) (r : FlushReason) : Bool :=
  causes.any (fun c => c.reason == r && c.slots.contains k)

/-- The flush reason of a slot that an event closes for these causes (R88), if any of them names it. -/
def reasonFor (causes : List Cause) (k : SlotIdx) : Option FlushReason :=
  reasonOrder.find? (namedFor causes k)

/-- The slots of an open-order list that these causes close, each with its reason, in the order of the list. -/
def closings (causes : List Cause) (order : List SlotIdx) : List (SlotIdx × FlushReason) :=
  order.filterMap (fun k => (reasonFor causes k).map (fun r => (k, r)))

/-- One event closes every OPEN slot its causes name, in the order of the open-order list (R87, R88). -/
def State.closeFor (s : State) (causes : List Cause) : State :=
  (closings causes s.openOrder).foldl (fun t c => t.closeSlot c.1 c.2) s

/-- The gather engine's snapshot without a slot (R119). -/
def Gather.dropSlot (g : Gather) (k : SlotIdx) : Gather :=
  match g with
  | .slotWait p snapshot => .slotWait p (snapshot.erase k)
  | .idle => .idle
  | .priorWait p => .priorWait p
  | .reading p job => .reading p job
  | .cancelWait p job => .cancelWait p job
  | .immediate job buffer => .immediate job buffer

/-- An entry's snapshot without a slot (R137). -/
def ForwardEntry.dropSlot (e : ForwardEntry) (k : SlotIdx) : ForwardEntry :=
  { e with snapshot := e.snapshot.erase k }

/-- A slot enters FREE (R94): its fields take the FREE values, and it leaves the flush-order list and the snapshots
that hold it. -/
def State.freeSlot (s : State) (k : SlotIdx) : State :=
  { s.setSlot k Slot.cleared with
    flushOrder := s.flushOrder.erase k
    gather := s.gather.dropSlot k
    forward := s.forward.map (fun e => e.dropSlot k) }

/-! ### The forward queue's head (R133, R136, R137) -/

/-- The lines that a range of beats touches, in increasing order (R134). -/
def linesOfRange (a : Addr) (beats : Nat) : List Addr :=
  (List.range ((rangeEnd a beats + 63) / 64 - a.toNat / 64)).map
    (fun j => BitVec.ofNat 32 ((a.toNat / 64 + j) * 64))

/-- A head takes its next step as far as it can go in this event: a new head by R133 and R136, a guard whose prior
set is empty by its snapshot (R137), a guard whose snapshot is empty by issuing. Answers the slots the snapshot asks
to be DEMAND-flushed. -/
def State.headStep (s : State) (e : ForwardEntry) : ForwardEntry × List SlotIdx :=
  let snapshot :=
    let named := s.slotsHolding (linesOfRange e.address e.beats)
    ({ e with state := if named.isEmpty then .issuing else .guardSlots, snapshot := named }, named)
  match e.state with
  | .behind =>
    match e.prior with
    | none => ({ e with state := .issuing }, [])
    | some ps => if ps.emptyIn s.intake then snapshot else ({ e with state := .guardPrior }, [])
  | .guardPrior =>
    match e.prior with
    | none => ({ e with state := .issuing }, [])
    | some ps => if ps.emptyIn s.intake then snapshot else (e, [])
  | .guardSlots => if e.snapshot.isEmpty then ({ e with state := .issuing }, []) else (e, [])
  | .issuing => (e, [])
  | .returning => (e, [])

/-- The guard's progress in an event (R136, R137), with the slots to DEMAND-flush. -/
def State.guardProgress (s : State) : State × List SlotIdx :=
  match s.forward with
  | [] => (s, [])
  | e :: rest => ({ s with forward := (s.headStep e).1 :: rest }, (s.headStep e).2)

/-! ### The gather engine (R117 to R121) -/

/-- The line reads of a footprint, none issued yet (R120). -/
def ReadJob.start (lines : List Addr) : ReadJob := ⟨lines, [], lines.length, 0, false⟩

/-- The footprint of an entry (R119). -/
def State.entryFootprint (s : State) (e : Entry) : List Addr :=
  (s.aperture e.aperture).fields.footprint e.address e.beats

/-- The gather engine takes its slot snapshot for the entry in place `p` (R119), with the slots to DEMAND-flush. -/
def State.gatherSnapshot (s : State) (p : PlaceIdx) (e : Entry) : State × List SlotIdx :=
  let lines := s.entryFootprint e
  let named := s.slotsHolding lines
  ({ s with gather := if named.isEmpty then .reading p (ReadJob.start lines) else .slotWait p named }, named)

/-- The engine goes on with the GATHERING entry in place `p`: to its snapshot when its prior set is empty, otherwise
into PRIOR_WAIT (R118, R119). -/
def State.gatherServe (s : State) (p : PlaceIdx) (e : Entry) : State × List SlotIdx :=
  if e.prior.emptyIn s.intake then s.gatherSnapshot p e else ({ s with gather := .priorWait p }, [])

/-- The gather engine's progress in an event: IDLE takes the oldest QUEUED entry (R118), PRIOR_WAIT goes on when the
prior set is empty (R119), SLOT_WAIT when the snapshot is empty (R119). -/
def State.gatherProgress (s : State) : State × List SlotIdx :=
  match s.gather with
  | .idle =>
    match s.queuedOrder with
    | [] => (s, [])
    | p :: rest =>
      match s.place p with
      | none => ({ s with queuedOrder := rest }, [])
      | some e =>
        ({ s with queuedOrder := rest }.setPlace p (some { e with state := .gathering })).gatherServe p e
  | .priorWait p =>
    match s.place p with
    | none => (s, [])
    | some e => s.gatherServe p e
  | .slotWait p snapshot =>
    match s.place p with
    | none => (s, [])
    | some e =>
      if snapshot.isEmpty then ({ s with gather := .reading p (ReadJob.start (s.entryFootprint e)) }, []) else (s, [])
  | .reading _ _ => (s, [])
  | .cancelWait _ _ => (s, [])
  | .immediate _ _ => (s, [])

/-! ### The fence (R101) and drains (R19) -/

/-- The completion test of the fence (R101). -/
def State.fenceComplete (s : State) : Bool :=
  s.fence.state == .pending &&
    (match s.fence.prior with | none => true | some ps => ps.emptyIn s.intake) &&
    (List.finRange 16).all (fun k => !(s.slot k).mark)

/-- The fence completes when its test holds (R101). -/
def State.fenceTest (s : State) : State :=
  if s.fenceComplete then
    { s with fence := ⟨if s.fence.fault then .doneFault else .done, none, false⟩ }
  else s

/-- Whether the port holds an immediate read of this aperture (R19). -/
def PortState.holdsImmediateOf (p : PortState) (i : ApertureIdx) : Bool :=
  match p with
  | .idle => false
  | .holding r =>
    match r.service with
    | .immediate j => j == i
    | .passThrough => false

/-- The drain condition of R19 for aperture `i`. -/
def State.drained (s : State) (i : ApertureIdx) : Bool :=
  (s.aperture i).state == .draining &&
    (match (s.aperture i).drain with | none => true | some ps => ps.emptyIn s.intake) &&
    (List.finRange 16).all (fun k => (s.slot k).state == .free || (s.slot k).aperture != i) &&
    (List.finRange 4).all (fun p => match s.place p with | none => true | some e => e.aperture != i) &&
    !s.port.holdsImmediateOf i

/-- An aperture whose drain condition holds enters EMPTY (R19). -/
def State.drainTest (s : State) (i : ApertureIdx) : State :=
  if s.drained i then s.setAperture i Aperture.cleared else s

/-- The drain test of every aperture. -/
def State.drainTests (s : State) : State := (List.finRange 8).foldl State.drainTest s

/-! ### The flash link, loading and quiescing (R181, R192, R193) -/

/-- FL_SEL_N takes a level; an edge is an output. -/
def State.flashSelect (s : State) (high : Bool) : State :=
  if s.flash.selN = high then s
  else ({ s with flash := { s.flash with selN := high } }).emit (.flashSelect high)

/-- FL_CLK and FL_DO after the bytes of a FLASH_XFER or of the loader's read command: the spec states no level (free
values, log 7). Header and image bytes draw none (log 27). -/
def State.flashClocked (s : State) : State :=
  { s with
    flash := ⟨s.flash.selN, Config.linkLevel s.freeCount, Config.linkLevel (s.freeCount + 1)⟩
    freeCount := s.freeCount + 2 }

/-- The flash link at rest (R180, R187). -/
def State.flashRest (s : State) : State := { s.flashSelect true with flash := FlashPins.rest }

/-- The serial read command 03h and the address 000000h (R181). -/
def flashReadCommand : List Byte := [0x03#8, 0x00#8, 0x00#8, 0x00#8]

/-- The part enters LOADING: the loader enters READING, takes FL_SEL_N low and shifts out the read command, and holds
FL_DO low while it clocks bytes in (R181). FL_CLK takes a free level (log 7). -/
def State.enterLoading (s : State) : State :=
  let t := (({ s with partState := .loading, loader := .reading none }.flashSelect false).emit
    (.flashShift flashReadCommand)).flashClocked
  { t with flash := { t.flash with dout := false } }

/-- The quiescing condition (R192). -/
def State.quiet (s : State) : Bool :=
  s.port == .idle && s.intake.isEmpty && s.scatter.state == .idle && s.forward.isEmpty && s.posted.isEmpty &&
    (List.finRange 16).all (fun k => (s.slot k).state == .free) &&
    (List.finRange 4).all (fun p => (s.place p).isNone) && s.gather == .idle &&
    (List.finRange 8).all (fun t => (s.tag t).isNone)

/-- QUIESCING ends (R193): every aperture EMPTY, the staging record empty, the timing settings at their defaults, and
the part enters LOADING. -/
def State.endQuiescing (s : State) : State :=
  { s with
    apertures := Vector.replicate 8 Aperture.cleared
    staging := none
    timing := Timing.default }.enterLoading

/-- Part control's test of R192. -/
def State.quiesceTest (s : State) : State :=
  if s.partState = .quiescing ∧ s.quiet = true then s.endQuiescing else s

/-- The slots of the RESTART demand (R105): every OPEN slot, once the intake is empty in QUIESCING. -/
def State.restartDemand (s : State) : List SlotIdx :=
  if s.partState = .quiescing ∧ s.intake.isEmpty = true then s.openOrder else []

/-- What the blocks do in the event in which something they wait for has happened (R65, R94; log 14): the guarded head
and the gather engine go on, every slot the event's causes name closes in one go (R88), and then the fence, the drains
and the quiescing condition are tested. -/
def State.settle (s : State) (causes : List Cause) : State :=
  let (s1, guardSlots) := s.guardProgress
  let (s2, gatherSlots) := s1.gatherProgress
  let closed := s2.closeFor (causes ++
    [⟨.restart, s2.restartDemand⟩, ⟨.guard, guardSlots⟩, ⟨.gather, gatherSlots⟩])
  closed.fenceTest.drainTests.quiesceTest

/-! ### The scatter engine (R66 to R71) -/

/-- The first byte at or after `i` whose enable is on. -/
def nextEnabled (data : List WriteByte) (i : Nat) : Option Nat :=
  (List.range data.length).find? (fun j => i ≤ j && (match data[j]? with | none => false | some b => b.enabled))

/-- The cursor at a record's first element (R68). -/
def firstCursor (data : List WriteByte) : Option Cursor := (nextEnabled data 0).map (fun b => ⟨b, 0⟩)

/-- The cursor after a placement: the next element of the byte, or the next enabled byte, or none after the last
(R68). -/
def nextCursor (f : Fields) (data : List WriteByte) (c : Cursor) : Option Cursor :=
  if c.element + 1 < f.placementsPerByte then some ⟨c.byte, c.element + 1⟩
  else (nextEnabled data (c.byte + 1)).map (fun b => ⟨b, 0⟩)

/-- The placement at the cursor: the line, the bit position, how many bits, and their values (R29, R32, R68). -/
structure Placement where
  line  : Addr
  pos   : Nat
  bits  : Nat
  value : Nat
  deriving DecidableEq, Repr

/-- The placement of the element at a cursor of a record, with the geometry of its aperture (R66, R68). -/
def placementAt (f : Fields) (r : IntakeRecord) (c : Cursor) : Placement :=
  let s := f.placementBit (f.viewOffset r.address + c.byte) c.element
  let v := match r.data[c.byte]? with | none => 0#8 | some b => b.value
  ⟨lineOfBit s, posOfBit s, f.placementBits, f.placementValue v c.element⟩

/-- The placement writes its bits into a slot's coverage and data (R83). -/
def Slot.placed (x : Slot) (p : Placement) : Slot :=
  { x with
    coverage := x.coverage ||| bitSpan p.pos p.bits
    data := (x.data &&& ~~~bitSpan p.pos p.bits) ||| bitsAt p.pos p.bits p.value }

/-- What the scatter engine's step leaves: the state, the causes that close slots in this event, and whether a record
left the intake. -/
structure Scattered where
  state  : State
  causes : List Cause
  left   : Bool
  deriving DecidableEq, Repr

/-- The OPEN slots of an aperture, in open order. -/
def State.openSlotsOf (s : State) (i : ApertureIdx) : List SlotIdx :=
  s.openOrder.filter (fun k => (s.slot k).aperture == i)

/-- Fence-mark the slots on a list (R96, R98). -/
def State.markSlots (s : State) (ks : List SlotIdx) : State :=
  ks.foldl (fun t k => t.setSlot k { t.slot k with mark := true }) s

/-- The DEMAND of a drain when a record of its prior set leaves (R18). -/
def State.drainDemand (s : State) (r : IntakeRecord) : List SlotIdx :=
  match (s.aperture r.aperture).drain with
  | none => []
  | some ps =>
    if (s.aperture r.aperture).state = .draining ∧ ps.holds r = true then s.openSlotsOf r.aperture else []

/-- The SCATTERING record `r` leaves the intake, `rest` remaining (R63): the next record becomes SCATTERING or the
engine enters IDLE, the touched slots are fence-marked for a pending fence that waits for `r` (R98), and the drain of
its aperture demands its slots (R18). -/
def State.recordLeaves (s : State) (r : IntakeRecord) (rest : List IntakeRecord) : State × List Cause :=
  let fenced := if s.fence.waitsFor r then r.touched else []
  let retired := s.drainDemand r
  let t := match rest with
    | [] => { s with intake := [], scatter := ⟨.idle, none⟩ }
    | n :: more =>
      { s with intake := { n with state := .scattering } :: more, scatter := ⟨.placing, firstCursor n.data⟩ }
  (t.markSlots fenced, [⟨.fence, fenced⟩, ⟨.retire, retired⟩])

/-- The record with a slot on its touched-slot list (R71). -/
def IntakeRecord.touch (r : IntakeRecord) (k : SlotIdx) : IntakeRecord :=
  if r.touched.contains k then r else { r with touched := r.touched ++ [k] }

/-- The element at the cursor of record `r` is placed into the OPEN slot `k` (R68, R83, R84). -/
def State.placeInto (s : State) (r : IntakeRecord) (rest : List IntakeRecord) (c : Cursor) (k : SlotIdx) :
    Scattered :=
  let f := (s.aperture r.aperture).fields
  let x := (s.slot k).placed (placementAt f r c)
  let r' := r.touch k
  let full : Cause := ⟨.full, if x.coverage = BitVec.allOnes 512 then [k] else []⟩
  let t := s.setSlot k x
  match nextCursor f r.data c with
  | some c' => ⟨{ t with intake := r' :: rest, scatter := ⟨.placing, some c'⟩ }, [full], false⟩
  | none =>
    let (u, causes) := t.recordLeaves r' rest
    ⟨u, full :: causes, true⟩

/-- A FREE slot is opened for a line (R69). -/
def State.openSlot (s : State) (k : SlotIdx) (line : Addr) (i : ApertureIdx) : State :=
  { s.setSlot k { Slot.cleared with state := .opened, line := line, aperture := i, openTime := s.now } with
    openOrder := s.openOrder ++ [k] }

/-- The scatter engine applies R68 to the element at the cursor of the SCATTERING record. -/
def State.scatterStep (s : State) : Scattered :=
  match s.intake, s.scatter.cursor with
  | r :: rest, some c =>
    let p := placementAt (s.aperture r.aperture).fields r c
    match s.slotWith .opened p.line with
    | some k => s.placeInto r rest c k
    | none =>
      match s.slotWith .merging p.line with
      | some _ => ⟨{ s with scatter := ⟨.waitMerge, some c⟩ }, [], false⟩
      | none =>
        match s.firstFreeSlot with
        | some k => (s.openSlot k p.line r.aperture).placeInto r rest c k
        | none => ⟨{ s with scatter := ⟨.waitSlot, some c⟩ }, [⟨.evict, s.openOrder.take 1⟩], false⟩
  | _, _ => ⟨s, [], false⟩

/-- The line of the element at the cursor, when the engine has one. -/
def State.cursorLine (s : State) : Option Addr :=
  match s.intake, s.scatter.cursor with
  | r :: _, some c => some (placementAt (s.aperture r.aperture).fields r c).line
  | _, _ => none

/-- A slot has entered FREE or left MERGING: the scatter engine goes on in this event if it waited for that (R70), and
the other waiters of R94 go on. `freed` says that a slot entered FREE; `line` is the line of the slot that left
MERGING. -/
def State.afterSlot (s : State) (freed : Bool) (line : Option Addr) : State :=
  if (s.scatter.state = .waitSlot ∧ freed = true) ∨
      (s.scatter.state = .waitMerge ∧ line.isSome = true ∧ s.cursorLine = line) then
    s.scatterStep.state.settle s.scatterStep.causes
  else s.settle []

/-! ### The deferred read table (R106 to R129) -/

/-- The place of the entry that is not CANCELLED and has the key (R110). -/
def State.entryWith (s : State) (r : Requester) (a : Addr) (beats : Nat) : Option PlaceIdx :=
  (List.finRange 4).find? (fun p => match s.place p with
    | none => false
    | some e => e.state != .cancelled && e.requester == r && e.address == a && e.beats == beats)

/-- The lowest-numbered free place (R109). -/
def State.firstFreePlace (s : State) : Option PlaceIdx := (List.finRange 4).find? (fun p => (s.place p).isNone)

/-- Whether stale marking reaches an entry in this state (R73, R139). -/
def EntryState.markable : EntryState → Bool
  | .queued => true
  | .gathering => true
  | .ready => true
  | .failed => false
  | .cancelled => false

/-- Mark stale every entry that is QUEUED, GATHERING or READY and meets a condition (R73, R139). -/
def State.markStale (s : State) (which : Entry → Bool) : State :=
  { s with
    places := Vector.ofFn (fun p : PlaceIdx => (s.place p).map (fun e =>
      if e.state.markable && which e then { e with stale := true } else e)) }

/-- A freed place is empty, and no order holds it any more (R107, R109). -/
def State.freePlace (s : State) (p : PlaceIdx) : State :=
  { s.setPlace p none with queuedOrder := s.queuedOrder.erase p }

/-- Cancel the entry in place `p` (R127). -/
def State.cancelEntry (s : State) (p : PlaceIdx) : State :=
  match s.place p with
  | none => s
  | some e =>
    match e.state with
    | .queued => s.freePlace p
    | .ready => s.freePlace p
    | .failed => s.freePlace p
    | .cancelled => s
    | .gathering =>
      match s.gather with
      | .reading q job =>
        if job.outstanding.isEmpty then { s.freePlace p with gather := .idle }
        else { s.setPlace p (some { e with state := .cancelled }) with
          gather := .cancelWait q { job with unissued := [] } }
      | .idle => { s.freePlace p with gather := .idle }
      | .priorWait _ => { s.freePlace p with gather := .idle }
      | .slotWait _ _ => { s.freePlace p with gather := .idle }
      | .cancelWait q job => { s.freePlace p with gather := .cancelWait q job }
      | .immediate job buffer => { s.freePlace p with gather := .immediate job buffer }

/-- Cancel every entry that meets a condition (R127, R128). -/
def State.cancelEntries (s : State) (which : Entry → Bool) : State :=
  (List.finRange 4).foldl (fun t p => match t.place p with
    | none => t
    | some e => if which e then t.cancelEntry p else t) s

/-! ### Time (R85, R125, R126; log 1) -/

/-- The age deadline of a slot's opening, when the age limit is not 0 (R85). -/
def State.ageDeadline (s : State) (x : Slot) : Option Nat :=
  if s.timing.ageLimit = 0 then none else some (x.openTime + s.timing.ageLimit)

/-- The OPEN slots whose deadline is at or before a time, in open order (R85). -/
def State.agedBy (s : State) (t : Nat) : List SlotIdx :=
  s.openOrder.filter (fun k => match s.ageDeadline (s.slot k) with | none => false | some d => d ≤ t)

/-- The expiry time of the entry in a place, if it has one (R125). -/
def State.expiryOf (s : State) (p : PlaceIdx) : Option Nat := (s.place p).bind (·.expiry)

/-- The places whose entries' expiry times are at or before a time, in increasing place order, in which R126 has the
entries of one event discarded. -/
def State.expiredBy (s : State) (t : Nat) : List PlaceIdx :=
  (List.finRange 4).filter (fun p => match s.expiryOf p with | none => false | some x => x ≤ t)

/-- The entry in place `p` is discarded (R126). -/
def State.discardEntry (s : State) (p : PlaceIdx) : State :=
  match s.place p with
  | none => s
  | some e => (s.freePlace p).raise .discard (some e.aperture) e.address (some e.requester)

/-- The time reaches `t` in one event: every age deadline and every expiry time at or before it is reached (R85, R126;
logs 1 and 16). -/
def State.passTime (s : State) (t : Nat) : State :=
  let s1 := { s with now := t }
  let s2 := s1.closeFor [⟨.age, s1.agedBy t⟩]
  let s3 := (s2.expiredBy t).foldl State.discardEntry s2
  s3.drainTests

end Sys2Proof.Machine
end

