-- ==== Sys2Proof/Machine/Link.lean ====
section
/-! DEFINITION. The frame receiver: results, responses, the taking of a frame (R160 to R166), and the meanings of
SELECTION_START, SHORT_FRAME, SELECTION_END, RESPONSE_END and UNKNOWN_CODE_FRAME. -/

namespace Sys2Proof.Machine

/-! ### Results and responses (R161, R162) -/

/-- The results of R161; OK carries the command's data, if it has any. -/
inductive Result where
  | ok (data : List Byte)
  | accepted
  | busy
  | state
  | invalid (d : Detail)
  | overlap (i : ApertureIdx)
  | length
  | badCheck
  | unknown
  deriving DecidableEq, Repr

/-- The result bytes (R161). -/
def Result.code : Result → Byte
  | .ok _ => 0x01#8
  | .accepted => 0x02#8
  | .busy => 0x03#8
  | .state => 0x04#8
  | .invalid _ => 0x05#8
  | .overlap _ => 0x06#8
  | .length => 0x07#8
  | .badCheck => 0x08#8
  | .unknown => 0x09#8

/-- The response bytes of a result (R161, R197). -/
def Result.bytes : Result → List Byte
  | .ok data => data
  | .accepted => []
  | .busy => []
  | .state => []
  | .invalid d => [d.code]
  | .overlap i => [BitVec.ofNat 8 i.val]
  | .length => []
  | .badCheck => []
  | .unknown => []

/-- The result byte, M, and the M response bytes. -/
def Result.body (r : Result) : List Byte := r.code :: BitVec.ofNat 8 r.bytes.length :: r.bytes

/-- The response with its check byte (R162). -/
def Result.response (r : Result) : List Byte := r.body ++ [crc8 r.body]

/-! ### Taking a frame (R160, R161) -/

/-- What the block that owns a command does with its argument bytes: the result, and the state the command leaves. -/
abbrev Decider := List Byte → State → Result × State

/-- The result of a frame and the state it leaves, by the first condition of R161 that applies. Conditions 1 to 4
change nothing. -/
def State.frameOutcome (s : State) (code : Byte) (f : Frame) (decider : Decider) : Result × State :=
  if f.check ≠ frameCheck code f.args then (.badCheck, s)
  else
    match commandRow code with
    | none => (.unknown, s)
    | some row =>
      if f.args.length < row.minL ∨ row.maxL < f.args.length then (.length, s)
      else if row.anyState = false ∧ s.partState ≠ .run then (.busy, s)
      else decider f.args s

/-- What the receiver keeps of a frame: the code, the length and the first 40 argument bytes (R160, log 25). -/
def keptOf (code : Byte) (f : Frame) : List Byte :=
  code :: BitVec.ofNat 8 f.args.length :: f.args.take Config.keptArguments

/-- A frame is taken in the event in which its check byte is complete: the receiver goes from RECEIVING to RESPONDING
(R160) with the response fixed (R162). The check byte of a frame cannot arrive in another state of the receiver
(log 2). -/
def State.takeFrame (s : State) (code : Byte) (f : Frame) (decider : Decider) : State :=
  match s.receiver.phase with
  | .receiving =>
    let o := s.frameOutcome code f decider
    { o.2 with
      receiver := { s.receiver with phase := .responding o.1.response, kept := keptOf code f } }
  | .idle => s
  | .responding _ => s
  | .trailing => s

/-- UNKNOWN_CODE_FRAME (R161): a frame whose code is not in the command table. -/
def execUnknownCodeFrame (code : Byte) (f : Frame) (s : State) : Host.Outcome State Fault Refusal :=
  .next (s.takeFrame code f (fun _ t => (.unknown, t)))

/-! ### The edges of MG_SEL_N (R160, R163, R164) -/

/-- SELECTION_START (R160): MG_SEL_N falls, and the receiver enters RECEIVING with nothing received, but in HELD it
disregards MG_SEL_N (R164). A line that is low already cannot fall (log 2). -/
def execSelectionStart (s : State) : Host.Outcome State Fault Refusal :=
  .next (
    if s.receiver.selHigh = false then s
    else if s.partState = .held then { s with receiver := { s.receiver with selHigh := false } }
    else { s with receiver := ⟨.receiving, [], false⟩ })

/-- MG_SEL_N rises (R160, R163): in RECEIVING the frame is a short frame and LINK_ERROR is raised; in every other state
the selection ends without an event. -/
def State.selectionRises (s : State) : State :=
  if s.receiver.selHigh = true then s
  else
    match s.receiver.phase with
    | .receiving => { s with receiver := ⟨.idle, [], true⟩ }.raiseBare .linkError
    | .idle => { s with receiver := { s.receiver with selHigh := true } }
    | .responding _ => { s with receiver := { s.receiver with phase := .idle, selHigh := true } }
    | .trailing => { s with receiver := { s.receiver with phase := .idle, selHigh := true } }

/-- SHORT_FRAME (R163): the rise of MG_SEL_N, which the receiver's state decides (log 3). -/
def execShortFrame (s : State) : Host.Outcome State Fault Refusal := .next s.selectionRises

/-- SELECTION_END (R163): the rise of MG_SEL_N, which the receiver's state decides (log 3). -/
def execSelectionEnd (s : State) : Host.Outcome State Fault Refusal := .next s.selectionRises

/-- RESPONSE_END (R160): the response check byte has been shifted out, and the receiver enters TRAILING. -/
def execResponseEnd (s : State) : Host.Outcome State Fault Refusal :=
  match s.receiver.phase with
  | .responding _ => .next { s with receiver := { s.receiver with phase := .trailing } }
  | .idle => .next s
  | .receiving => .next s
  | .trailing => .next s

end Sys2Proof.Machine
end

