-- ==== Sys2Proof/Machine/ApertureFamily.lean ====
section
/-! DEFINITION. Meanings of the aperture commands: STAGE, COMMIT, SUSPEND, RESUME, RETIRE (01_apertures.md). -/

namespace Sys2Proof.Machine

/-! ### STAGE (R7) -/

/-- STAGE's own rule. -/
def stageDecider : Decider := fun args s =>
  match fieldsOfImage args with
  | none => (.invalid .field, s)
  | some f => (.ok [], { s with staging := some f })

/-- STAGE (R7). -/
def execStage (f : Frame) (s : State) : Host.Outcome State Fault Refusal :=
  .next (s.takeFrame codeStage f stageDecider)

/-! ### COMMIT (R8, R12) -/

/-- The lowest-indexed aperture that is not EMPTY and whose fields stand in the relation to the staged ones (R10). -/
def State.firstOverlap (s : State) (overlaps : Fields → Bool) : Option ApertureIdx :=
  (List.finRange 8).find? (fun j => (s.aperture j).state != .empty && overlaps (s.aperture j).fields)

/-- The installation of R12. -/
def State.install (s : State) (i : ApertureIdx) (f : Fields) : State :=
  { s.setAperture i ⟨.active, f, none⟩ with staging := none }

/-- Steps 2 to 6 of R8 for an index from 0 to 7. -/
def State.commitAt (s : State) (i : ApertureIdx) : Result × State :=
  match s.staging with
  | none => (.state, s)
  | some f =>
    if (s.aperture i).state ≠ .empty then (.state, s)
    else
      match f.invalid with
      | some d => (.invalid d, s)
      | none =>
        match s.firstOverlap f.viewsOverlap with
        | some j => (.overlap j, s)
        | none =>
          match s.firstOverlap f.surfacesOverlap with
          | some j => (.overlap j, s)
          | none => (.ok [], s.install i f)

/-- The rule of a command whose argument is an aperture index: INVALID with detail INDEX above 7 (R8, R13, R15,
R17). -/
def indexDecider (at' : State → ApertureIdx → Result × State) : Decider := fun args s =>
  match indexOf (byteAt args 0) with
  | none => (.invalid .index, s)
  | some i => at' s i

/-- COMMIT (R8). -/
def execCommit (f : Frame) (s : State) : Host.Outcome State Fault Refusal :=
  .next (s.takeFrame codeCommit f (indexDecider State.commitAt))

/-! ### SUSPEND and RESUME (R13, R15) -/

/-- Aperture `i` in another state, its fields as they are (R16). -/
def State.withApertureState (s : State) (i : ApertureIdx) (st : ApertureState) : State :=
  s.setAperture i { s.aperture i with state := st }

/-- R13 for an index from 0 to 7. -/
def State.suspendAt (s : State) (i : ApertureIdx) : Result × State :=
  match (s.aperture i).state with
  | .active => (.ok [], s.withApertureState i .suspended)
  | .suspended => (.ok [], s)
  | .empty => (.state, s)
  | .draining => (.state, s)

/-- SUSPEND (R13). -/
def execSuspend (f : Frame) (s : State) : Host.Outcome State Fault Refusal :=
  .next (s.takeFrame codeSuspend f (indexDecider State.suspendAt))

/-- R15 for an index from 0 to 7. -/
def State.resumeAt (s : State) (i : ApertureIdx) : Result × State :=
  match (s.aperture i).state with
  | .suspended => (.ok [], s.withApertureState i .active)
  | .active => (.ok [], s)
  | .empty => (.state, s)
  | .draining => (.state, s)

/-- RESUME (R15). -/
def execResume (f : Frame) (s : State) : Host.Outcome State Fault Refusal :=
  .next (s.takeFrame codeResume f (indexDecider State.resumeAt))

/-! ### RETIRE (R17) -/

/-- The effect of an accepted RETIRE (R17): DRAINING with a prior set restricted to the aperture, its deferred entries
cancelled, its OPEN slots DEMAND-flushed, and the drain condition tested. -/
def State.beginDrain (s : State) (i : ApertureIdx) : State :=
  ((s.setAperture i ⟨.draining, (s.aperture i).fields, some (s.takePrior (some i))⟩).cancelEntries
    (fun e => e.aperture == i)).settle [⟨.retire, s.openSlotsOf i⟩]

/-- R17 for an index from 0 to 7. -/
def State.retireAt (s : State) (i : ApertureIdx) : Result × State :=
  match (s.aperture i).state with
  | .active => (.accepted, s.beginDrain i)
  | .suspended => (.accepted, s.beginDrain i)
  | .empty => (.state, s)
  | .draining => (.state, s)

/-- RETIRE (R17). -/
def execRetire (f : Frame) (s : State) : Host.Outcome State Fault Refusal :=
  .next (s.takeFrame codeRetire f (indexDecider State.retireAt))

end Sys2Proof.Machine
end

