-- ==== Sys2Proof/Machine/FlashFamily.lean ====
section
/-! DEFINITION. Meanings of FLASH_OPEN, FLASH_XFER, FLASH_CLOSE and RESTART
(10_boot_loading_flash_access_and_restart.md). -/

namespace Sys2Proof.Machine

/-! ### FLASH_OPEN (R188) -/

/-- FLASH_OPEN's own rule. -/
def openDecider : Decider := fun _ s =>
  match s.session with
  | .closed => (.ok [], { s with session := .deselected })
  | .deselected => (.busy, s)
  | .selected => (.busy, s)

/-- FLASH_OPEN (R188). -/
def execFlashOpen (f : Frame) (s : State) : Host.Outcome State Fault Refusal :=
  .next (s.takeFrame codeFlashOpen f openDecider)

/-! ### FLASH_XFER (R189) -/

/-- The select state a flag byte leaves, when it is 00h or 01h (R189). -/
def xferFlag (b : Byte) : Option FlashSession :=
  if b = 0#8 then some .selected else if b = 1#8 then some .deselected else none

/-- The transfer: select if deselected, shift the payload out, then leave the select state `after` (R189). -/
def State.transfer (s : State) (payload : List Byte) (after : FlashSession) : State :=
  let t := ((s.flashSelect false).emit (.flashShift payload)).flashClocked
  match after with
  | .selected => { t with session := .selected }
  | .deselected => { t.flashSelect true with session := .deselected }
  | .closed => t

/-- The bytes shifted in while `n` bytes are shifted out. -/
def shiftedIn (n : Nat) (flashIn : List Byte) : List Byte := (List.range n).map (byteAt flashIn)

/-- FLASH_XFER's own rule, the flash returning the bytes `flashIn`. -/
def xferDecider (flashIn : List Byte) : Decider := fun args s =>
  match s.session with
  | .closed => (.state, s)
  | .deselected | .selected =>
    match xferFlag (byteAt args 0) with
    | none => (.invalid .field, s)
    | some after => (.ok (shiftedIn args.tail.length flashIn), s.transfer args.tail after)

/-- FLASH_XFER (R189). -/
def execFlashXfer (f : Frame) (flashIn : List Byte) (s : State) : Host.Outcome State Fault Refusal :=
  .next (s.takeFrame codeFlashXfer f (xferDecider flashIn))

/-! ### FLASH_CLOSE (R190) -/

/-- The session becomes CLOSED and the flash link rests (R187, R190); a CLOSED session stays as it is. -/
def State.closeSession (s : State) : State :=
  match s.session with
  | .closed => s
  | .deselected | .selected => { s.flashRest with session := .closed }

/-- FLASH_CLOSE's own rule. -/
def closeDecider : Decider := fun _ s => (.ok [], s.closeSession)

/-- FLASH_CLOSE (R190). -/
def execFlashClose (f : Frame) (s : State) : Host.Outcome State Fault Refusal :=
  .next (s.takeFrame codeFlashClose f closeDecider)

/-! ### RESTART (R191) -/

/-- The effect of an accepted RESTART (R191); the RESTART demand of R105 and the test of R192 are in `settle`. -/
def State.beginQuiescing (s : State) : State :=
  ({ s.closeSession with partState := .quiescing, ready := false }.cancelEntries (fun _ => true)).settle []

/-- RESTART's own rule. -/
def restartDecider : Decider := fun _ s => (.accepted, s.beginQuiescing)

/-- RESTART (R191). -/
def execRestart (f : Frame) (s : State) : Host.Outcome State Fault Refusal :=
  .next (s.takeFrame codeRestart f restartDecider)

end Sys2Proof.Machine
end

