-- ==== Sys2Proof/Machine/LoaderFamily.lean ====
section
/-! DEFINITION. Meanings of the reset and loader commands: RESET_N_ASSERTED, RESET_N_RELEASED, HEADER_RECEIVED,
IMAGE_READ_END, CHECKS_END, INSTALL_EVENT (10_boot_loading_flash_access_and_restart.md). -/

namespace Sys2Proof.Machine

/-- Every block takes its power-on value (R180, with R5, R59, R76, R104, R131, R144, R158, R164, R173). FL_SEL_N rises
if it was low. What is outside the part or the model's own goes on: the queue, the time, the trace, the counter of
free values, and the level of MG_SEL_N (log 18). -/
def State.powerOn (s : State) : State :=
  { State.reset with
    pending := s.pending
    now := s.now
    trace := (s.flashSelect true).trace
    freeCount := s.freeCount
    receiver := { State.reset.receiver with selHigh := s.receiver.selHigh } }

/-- RESET_N_ASSERTED (R179, R180). -/
def execResetNAsserted (s : State) : Host.Outcome State Fault Refusal := .next s.powerOn

/-- RESET_N_RELEASED (R179, R181): HELD goes to LOADING, and the loader begins to read. In any other part state
RESET_N is high already, and nothing changes (log 2). -/
def execResetNReleased (s : State) : Host.Outcome State Fault Refusal :=
  .next (if s.partState = .held then s.enterLoading else s)

/-- The part enters RUN in the event in which the loader finishes (R185): the settings and the mask, the boot outcome,
the loader IDLE, the flash link at rest, READY high. -/
def State.loaderFinish (s : State) (o : BootOutcome) (timing : Timing) (attention : Byte) : State :=
  { s.flashRest with
    timing := timing
    events := { s.events with attention := attention }
    outcome := o
    loader := .idle
    partState := .run
    ready := true }

/-- The loader finishes with BLANK (R185). -/
def State.finishBlank (s : State) : State := s.loaderFinish .blank Timing.default Config.defaultAttention

/-- The loader finishes with CORRUPT, and BOOT_FAULT records the flash offset (R185). -/
def State.finishCorrupt (s : State) (offset : Nat) : State :=
  (s.loaderFinish .corrupt Timing.default Config.defaultAttention).raise .bootFault none
    (BitVec.ofNat 32 offset) none

/-- HEADER_RECEIVED (R182): the header decides the outcome, or the read goes on with the header kept. The event
cannot take place unless the loader is READING before the 16th header byte, and comes with 16 bytes (log 2). When the
read goes on, FL_CLK keeps the level drawn after the read command, though the header bytes have been clocked (DESIGN
CHOICE, log 27: the spec states none). -/
def execHeaderReceived (header : List Byte) (s : State) : Host.Outcome State Fault Refusal :=
  match s.loader with
  | .reading none =>
    if header.length = 16 then
      match (headerOf header).verdict with
      | .blank => .next s.finishBlank
      | .corrupt offset => .next (s.finishCorrupt offset)
      | .goesOn => .next { s with loader := .reading (some header) }
    else .next s
  | .reading (some _) => .next s
  | .idle => .next s
  | .checking _ => .next s
  | .installing _ _ => .next s

/-- IMAGE_READ_END (R182): with the last of the 24n + 4 bytes after the header, FL_SEL_N rises and the loader enters
CHECKING with the whole image. Another number of bytes is not this event (log 2). FL_CLK keeps the level drawn after the
read command, though the image bytes have been clocked, and FL_DO stays low when the read has ended (DESIGN CHOICE,
log 27: the spec states neither). -/
def execImageReadEnd (rest : List Byte) (s : State) : Host.Outcome State Fault Refusal :=
  match s.loader with
  | .reading (some header) =>
    if rest.length = 24 * (headerOf header).recordCount.toNat + 4 then
      .next { s.flashSelect true with loader := .checking (header ++ rest) }
    else .next s
  | .reading none => .next s
  | .idle => .next s
  | .checking _ => .next s
  | .installing _ _ => .next s

/-- CHECKS_END (R183): the first failing check finishes the load with CORRUPT, otherwise the loader enters
INSTALLING, FL_CLK and FL_DO keeping their levels (DESIGN CHOICE, log 27). -/
def execChecksEnd (s : State) : Host.Outcome State Fault Refusal :=
  match s.loader with
  | .checking image =>
    match checkImage image with
    | .error offset => .next (s.finishCorrupt offset)
    | .ok records => .next { s with loader := .installing (headerOf image) records }
  | .reading _ => .next s
  | .idle => .next s
  | .installing _ _ => .next s

/-- One checked record is installed as ACTIVE (R184). -/
def State.installRecord (s : State) (r : BootRecord) : State := s.setAperture r.index ⟨.active, r.fields, none⟩

/-- INSTALL_EVENT (R184, R185). -/
def execInstallEvent (s : State) : Host.Outcome State Fault Refusal :=
  match s.loader with
  | .installing header records =>
    .next ((records.foldl State.installRecord s).loaderFinish (.loaded records.length) header.timing
      header.attention)
  | .reading _ => .next s
  | .idle => .next s
  | .checking _ => .next s

end Sys2Proof.Machine
end

