-- ==== Sys2Proof/Machine/SystemPort.lean ====
section
/-! DEFINITION. Meaning of REQUEST: decode, classification, hand-over and answer (03_system_port.md), with the claims
and creations of the deferred read table (06_deferred_reads.md) and acceptance into the intake and the forward queue. -/

namespace Sys2Proof.Machine

/-! ### Decode (R42 to R45) -/

/-- R44: a malformed request. -/
def malformed (r : Request) : Bool :=
  r.beats < 1 || 16 < r.beats || r.address.toNat % 8 != 0 || 0x1000 < r.address.toNat % 0x1000 + 8 * r.beats

/-- The classes of R42, with the answers of steps 1, 2 and 4. -/
inductive Decoded where
  | outsideRun
  | malformed
  | inAperture (i : ApertureIdx)
  | crossing (i : ApertureIdx)
  | passThrough
  deriving DecidableEq, Repr

/-- Whether aperture `i` has a view window and it holds every addressed byte (R45). -/
def State.windowHolds (s : State) (r : Request) (i : ApertureIdx) : Bool :=
  (s.aperture i).state != .empty &&
    (s.aperture i).fields.viewHolds r.address.toNat (rangeEnd r.address r.beats)

/-- Whether aperture `i` has a view window and it holds some addressed byte (R45). -/
def State.windowMeets (s : State) (r : Request) (i : ApertureIdx) : Bool :=
  (s.aperture i).state != .empty &&
    (s.aperture i).fields.viewMeets r.address.toNat (rangeEnd r.address r.beats)

/-- Whether aperture `i` has a surface with this access setting and it holds some addressed byte (R51, R52). -/
def State.surfaceMeets (s : State) (r : Request) (access : SurfaceAccess) (i : ApertureIdx) : Bool :=
  (s.aperture i).state != .empty && (s.aperture i).fields.surfaceAccess == access &&
    (s.aperture i).fields.surfaceMeets r.address.toNat (rangeEnd r.address r.beats)

/-- The steps of R42, in order. -/
def State.decode (s : State) (r : Request) : Decoded :=
  if s.partState ≠ .run then .outsideRun
  else if malformed r then .malformed
  else
    match (List.finRange 8).find? (s.windowHolds r) with
    | some i => .inAperture i
    | none =>
      match (List.finRange 8).find? (s.windowMeets r) with
      | some i => .crossing i
      | none => .passThrough

/-! ### Answers -/

/-- An ERROR answer given at decode raises DECODE_ERROR in the same event (R55). -/
def State.decodeError (s : State) (r : Request) (d : ErrorDetail) (i : Option ApertureIdx) : State :=
  (s.raise .decodeError i r.address (some r.requester)).answer r.requester (.error d)

/-- A WRITE whose enables are all off (R54). -/
def noneEnabled (r : Request) : Bool := r.data.all (fun b => !b.enabled)

/-- The port holds the bus for a read (R40). -/
def State.hold (s : State) (r : Request) (service : HeldService) : State :=
  { s with port := .holding ⟨r.requester, r.address, r.beats, service⟩ }

/-! ### Aperture writes (R48, R62, R73) -/

/-- Whether an accepted write to aperture `i` makes an entry stale (R73): same aperture, ranges that meet. -/
def Entry.overlappedBy (e : Entry) (r : Request) (i : ApertureIdx) : Bool :=
  e.aperture == i && rangesMeet e.address.toNat (rangeEnd e.address e.beats) r.address.toNat
    (rangeEnd r.address r.beats)

/-- The newest intake record (R61, R62); SCATTERING in the same event when the intake was empty. -/
def State.newRecord (s : State) (r : Request) (i : ApertureIdx) : IntakeRecord :=
  ⟨s.acceptCount + 1, i, r.address, r.beats, r.data, if s.intake.isEmpty then .scattering else .waiting, []⟩

/-- An aperture write joins the intake (R62) and marks deferred entries stale when the aperture is STRICT (R73). -/
def State.acceptWrite (s : State) (r : Request) (i : ApertureIdx) : State :=
  let t := { s with
    intake := s.intake ++ [s.newRecord r i]
    acceptCount := s.acceptCount + 1
    scatter := if s.intake.isEmpty then ⟨.placing, firstCursor r.data⟩ else s.scatter }
  if (s.aperture i).fields.readOrdering = .strict then t.markStale (fun e => e.overlappedBy r i) else t

/-- An aperture write that has passed the access check (R48, R54). -/
def State.apertureWrite (s : State) (r : Request) (i : ApertureIdx) : State :=
  if noneEnabled r then s.answer r.requester .accepted
  else if Config.intakeCapacity ≤ s.intake.length then s.answer r.requester .retry
  else (s.acceptWrite r i).answer r.requester .accepted

/-! ### Aperture reads (R110 to R115) -/

/-- The requeued entry (R124): QUEUED, a new prior set, not stale, no expiry, its buffer's content undefined. -/
def Entry.requeued (e : Entry) (ps : PriorSet) : Entry :=
  { e with state := .queued, stale := false, prior := ps, expiry := none, buffer := ReadBuffer.blank }

/-- A claim of the entry in place `p` (R111, R124). -/
def State.claim (s : State) (r : Request) (p : PlaceIdx) (e : Entry) : State :=
  match e.state with
  | .queued => s.answer r.requester .retry
  | .gathering => s.answer r.requester .retry
  | .cancelled => s.answer r.requester .retry
  | .failed => ((s.freePlace p).drainTest e.aperture).answer r.requester (.error .fault)
  | .ready =>
    if e.stale then
      ({ s.setPlace p (some (e.requeued (s.takePrior none))) with
        queuedOrder := s.queuedOrder ++ [p] }.settle []).answer r.requester .retry
    else
      ((s.freePlace p).drainTest e.aperture).answer r.requester (.data (e.buffer.bytes (8 * e.beats)))

/-- The footprint of a read of aperture `i` (R36). -/
def State.readFootprint (s : State) (r : Request) (i : ApertureIdx) : List Addr :=
  (s.aperture i).fields.footprint r.address r.beats

/-- An entry that is QUEUED or GATHERING defeats the immediate conditions (R112). -/
def EntryState.defeatsImmediate : EntryState → Bool
  | .queued => true
  | .gathering => true
  | .ready => false
  | .failed => false
  | .cancelled => false

/-- The immediate conditions (R112). -/
def State.immediateOk (s : State) (r : Request) (i : ApertureIdx) : Bool :=
  (s.readFootprint r i).length ≤ Config.maxImmediateLines && s.intake.isEmpty &&
    (s.slotsHolding (s.readFootprint r i)).isEmpty &&
    (List.finRange 4).all (fun p => match s.place p with | none => true | some e => !e.state.defeatsImmediate)

/-- The gather engine takes an immediate read when it is IDLE; in CANCEL_WAIT it takes it in the event that frees the
CANCELLED entry (R115). -/
def State.takeImmediate (s : State) (lines : List Addr) : State :=
  match s.gather with
  | .idle => { s with gather := .immediate (ReadJob.start lines) ReadBuffer.blank }
  | .priorWait _ => s
  | .slotWait _ _ => s
  | .reading _ _ => s
  | .cancelWait _ _ => s
  | .immediate _ _ => s

/-- A new entry in place `p` (R113); an IDLE gather engine takes it at once (R118). -/
def State.createEntry (s : State) (r : Request) (i : ApertureIdx) (p : PlaceIdx) : State :=
  { s.setPlace p (some ⟨r.requester, r.address, r.beats, i, .queued, false, s.takePrior none, ReadBuffer.blank,
      none⟩) with
    queuedOrder := s.queuedOrder ++ [p] }.settle []

/-- An aperture read to an ACTIVE aperture that has passed the access check, by the cases of R110. -/
def State.apertureRead (s : State) (r : Request) (i : ApertureIdx) : State :=
  match s.entryWith r.requester r.address r.beats with
  | some p =>
    match s.place p with
    | some e => s.claim r p e
    | none => s
  | none =>
    if s.immediateOk r i then (s.hold r (.immediate i)).takeImmediate (s.readFootprint r i)
    else
      match s.firstFreePlace with
      | some p => (s.createEntry r i p).answer r.requester .retry
      | none => (s.raiseBare .tableFull).answer r.requester .retry

/-- A read to a SUSPENDED aperture: a claim of a READY or FAILED entry, otherwise RETRY (R46, R14). -/
def State.suspendedRead (s : State) (r : Request) : State :=
  match s.entryWith r.requester r.address r.beats with
  | some p =>
    match s.place p with
    | some e => if e.state = .ready ∨ e.state = .failed then s.claim r p e else s.answer r.requester .retry
    | none => s.answer r.requester .retry
  | none => s.answer r.requester .retry

/-- Whether an access setting allows a kind of request (R47). -/
def Access.allows : Access → RequestKind → Bool
  | .readWrite, _ => true
  | .readOnly, k => k == .read
  | .writeOnly, k => k == .write

/-- An aperture request (R46, R47). -/
def State.apertureRequest (s : State) (r : Request) (i : ApertureIdx) : State :=
  match (s.aperture i).state with
  | .active =>
    if (s.aperture i).fields.access.allows r.kind then
      match r.kind with
      | .read => s.apertureRead r i
      | .write => s.apertureWrite r i
    else s.decodeError r .access (some i)
  | .suspended =>
    match r.kind with
    | .read => s.suspendedRead r
    | .write => s.answer r.requester .retry
  | .draining => s.answer r.requester .retry
  | .empty => s.answer r.requester .retry

/-! ### Pass-through requests (R51 to R54, R132 to R134) -/

/-- Byte `j` of a write's data falls in this byte of a line: its value when its enable is on, otherwise 00h outside
the mask (R134). -/
def writeByteAt (a : Addr) (data : List WriteByte) (byteAddress : Nat) : Option Byte :=
  if a.toNat ≤ byteAddress then
    match data[byteAddress - a.toNat]? with
    | none => none
    | some b => if b.enabled then some b.value else none
  else none

/-- The byte mask of a pass-through line write (R134). -/
def writeMask (a : Addr) (data : List WriteByte) (line : Addr) : ByteMask :=
  bitsOf 64 (fun j => (writeByteAt a data (line.toNat + j)).isSome)

/-- The 64 data bytes of a pass-through line write; bytes outside the mask carry 00h (R134). -/
def writeLine (a : Addr) (data : List WriteByte) (line : Addr) : LineData :=
  lineOf (fun j => (writeByteAt a data (line.toNat + j)).getD 0#8)

/-- The line list of an entry (R134): every line a READ touches, and the lines of a WRITE that hold an enabled
byte. -/
def lineList (r : Request) : List ForwardLine :=
  ((linesOfRange r.address r.beats).filter (fun l => match r.kind with
    | .read => true
    | .write => writeMask r.address r.data l != 0#64)).map (fun l => ⟨l, .unissued⟩)

/-- A new forward queue entry, BEHIND until it is the head (R132, R133). -/
def State.newForward (s : State) (r : Request) (guarded : Bool) : ForwardEntry :=
  ⟨r.kind, r.requester, r.address, r.beats, r.data, if guarded then some (s.takePrior none) else none, lineList r,
    [], .behind, ReadBuffer.blank⟩

/-- The entry joins the queue; into an empty queue it becomes the head in this event (R133). -/
def State.appendForward (s : State) (r : Request) (guarded : Bool) : State :=
  { s with forward := s.forward ++ [s.newForward r guarded] }.settle []

/-- A pass-through request (R51 to R54). -/
def State.passThrough (s : State) (r : Request) : State :=
  match (List.finRange 8).find? (s.surfaceMeets r .denied) with
  | some i => s.decodeError r .denied (some i)
  | none =>
    let guarded := (List.finRange 8).any (s.surfaceMeets r .ordered)
    match r.kind with
    | .write =>
      if noneEnabled r then s.answer r.requester .accepted
      else if Config.forwardCapacity ≤ s.forward.length then s.answer r.requester .retry
      else (s.appendForward r guarded).answer r.requester .accepted
    | .read =>
      if Config.forwardCapacity ≤ s.forward.length then s.answer r.requester .retry
      else (s.hold r .passThrough).appendForward r guarded

/-- REQUEST (R40, R42). While the port is HOLDING no request is presented to it, so none is taken (R40, log 12). -/
def execRequest (r : Request) (s : State) : Host.Outcome State Fault Refusal :=
  match s.port with
  | .holding _ => .next s
  | .idle =>
    match s.decode r with
    | .outsideRun => .next (s.answer r.requester .retry)
    | .malformed => .next (s.decodeError r .shape none)
    | .inAperture i => .next (s.apertureRequest r i)
    | .crossing i => .next (s.decodeError r .crossing (some i))
    | .passThrough => .next (s.passThrough r)

end Sys2Proof.Machine
end

