-- ==== Sys2Proof/Machine/MemoryPort.lean ====
section
/-! DEFINITION. Meanings of GRANT and of the eight rows of completions: the arbiter, the tag table, and what each
owner does with its completion (08_memory_port.md). -/

namespace Sys2Proof.Machine

/-! ### What each source offers (R153) -/

/-- The first unissued line of a line list (R135). -/
def firstUnissued (ls : List ForwardLine) : Option ForwardLine := ls.find? (fun l => l.mark == .unissued)

/-- FORWARD: the first unissued line of the head while it is ISSUING (R135). -/
def State.forwardOffer (s : State) : Option ForwardLine :=
  match s.forward with
  | [] => none
  | e :: _ => if e.state = .issuing then firstUnissued e.lines else none

/-- COMBINE: the oldest slot on the flush-order list whose request is ready (R90). -/
def State.combineOffer (s : State) : Option SlotIdx :=
  s.flushOrder.find? (fun k => (s.slot k).request == .ready)

/-- A job's next line, while fewer than four reads are outstanding (R120, R153). -/
def ReadJob.offer (j : ReadJob) : Option Addr :=
  if j.outstanding.length < Config.maxGatherReads then j.unissued.head? else none

/-- GATHER: the next unissued footprint line in READING or IMMEDIATE (R115, R120). -/
def State.gatherOffer (s : State) : Option Addr :=
  match s.gather with
  | .reading _ job => job.offer
  | .immediate job _ => job.offer
  | .idle => none
  | .priorWait _ => none
  | .slotWait _ _ => none
  | .cancelWait _ _ => none

/-- The lowest-numbered FREE tag (R150). -/
def State.freeTag (s : State) : Option Tag := (List.finRange 8).find? (fun t => (s.tag t).isNone)

/-- Whether a source has a request ready (R153). -/
def State.offers (s : State) : Source → Bool
  | .forward => s.forwardOffer.isSome
  | .combine => s.combineOffer.isSome
  | .gather => s.gatherOffer.isSome

/-- A source is requesting when it has a request ready and at least one tag is FREE (R153). -/
def State.requesting (s : State) (c : Source) : Bool := s.freeTag.isSome && s.offers c

/-! ### The arbiter (R154) -/

/-- The rotation FORWARD, COMBINE, GATHER and back to FORWARD. -/
def Source.next : Source → Source
  | .forward => .combine
  | .combine => .gather
  | .gather => .forward

/-- The arbiter's choice: the source granted, which becomes or stays the holder, and the allowance used; none when no
source is requesting (R154, steps 1 to 3). -/
def State.choice (s : State) : Option (Source × Nat) :=
  if s.requesting s.holder ∧ s.used < s.timing.allowance then some (s.holder, s.used + 1)
  else if s.requesting s.holder.next then some (s.holder.next, 1)
  else if s.requesting s.holder.next.next then some (s.holder.next.next, 1)
  else if s.requesting s.holder then some (s.holder, 1)
  else none

/-! ### Issuing a request (R135, R146, R150) -/

/-- Mark the first unissued line of a list as granted (R135). -/
def markGranted (t : Tag) : List ForwardLine → List ForwardLine
  | [] => []
  | l :: ls => if l.mark = .unissued then { l with mark := .granted t } :: ls else l :: markGranted t ls

/-- A guarded write's last grant marks stale every markable entry whose aperture is STRICT and whose surface extent
meets the write's addressed bytes, by the table as it stands in this event (R139). -/
def State.guardedWriteMarks (s : State) (e : ForwardEntry) : State :=
  match e.prior with
  | none => s
  | some _ => s.markStale (fun d =>
      (s.aperture d.aperture).state != .empty && (s.aperture d.aperture).fields.readOrdering == .strict &&
        (s.aperture d.aperture).fields.surfaceMeets e.address.toNat (rangeEnd e.address e.beats))

/-- The head's ready line goes out with the tag (R135). The last line write of a WRITE lets the entry leave the queue;
the last line read of a READ puts it in RETURNING. -/
def State.issueForward (s : State) (t : Tag) (e : ForwardEntry) (rest : List ForwardEntry) (l : ForwardLine) :
    State :=
  let e' := { e with lines := markGranted t e.lines }
  match e.kind with
  | .read =>
    let t1 := (s.setTag t (some ⟨.forward, .read, l.line, .readHead⟩)).emit (.memory (.lineRead t l.line))
    { t1 with
      forward := (if (firstUnissued e'.lines).isNone then { e' with state := .returning } else e') :: rest }
  | .write =>
    let t1 := (s.setTag t (some ⟨.forward, .write, l.line, .outstandingWrite⟩)).emit
      (.memory (.lineWrite t l.line (writeLine e.address e.data l.line) (writeMask e.address e.data l.line)))
    let t2 := { t1 with posted := s.posted ++ [OutstandingWrite.mk t l.line e.requester] }
    if (firstUnissued e'.lines).isNone then ({ t2 with forward := rest }.guardedWriteMarks e).settle []
    else { t2 with forward := e' :: rest }

/-- A slot's ready request goes out with the tag (R90): its merge read, or its line write with 00h outside the
mask. -/
def State.issueCombine (s : State) (t : Tag) (k : SlotIdx) : State :=
  let x := s.slot k
  let t1 := s.setSlot k { x with request := .outstanding t }
  if x.state = .merging then
    (t1.setTag t (some ⟨.combine, .read, x.line, .slot k⟩)).emit (.memory (.lineRead t x.line))
  else
    (t1.setTag t (some ⟨.combine, .write, x.line, .slot k⟩)).emit
      (.memory (.lineWrite t x.line (x.data &&& bitsOfMask x.mask) x.mask))

/-- A job with its next line issued under a tag (R120, R150). -/
def ReadJob.issued (j : ReadJob) (t : Tag) : ReadJob :=
  { j with unissued := j.unissued.tail, outstanding := j.outstanding ++ [t] }

/-- The gather engine's ready line goes out with the tag (R115, R120). -/
def State.issueGather (s : State) (t : Tag) (line : Addr) : State :=
  match s.gather with
  | .reading p job =>
    { (s.setTag t (some ⟨.gather, .read, line, .place p⟩)).emit (.memory (.lineRead t line)) with
      gather := .reading p (job.issued t) }
  | .immediate job buffer =>
    { (s.setTag t (some ⟨.gather, .read, line, .immediateRead⟩)).emit (.memory (.lineRead t line)) with
      gather := .immediate (job.issued t) buffer }
  | .idle => s
  | .priorWait _ => s
  | .slotWait _ _ => s
  | .cancelWait _ _ => s

/-- The granted source's request is issued with the tag (R154). -/
def State.issue (s : State) (c : Source) (t : Tag) : State :=
  match c with
  | .forward =>
    match s.forward, s.forwardOffer with
    | e :: rest, some l => s.issueForward t e rest l
    | _, _ => s
  | .combine =>
    match s.combineOffer with
    | some k => s.issueCombine t k
    | none => s
  | .gather =>
    match s.gatherOffer with
    | some line => s.issueGather t line
    | none => s

/-- GRANT (R154): with no source requesting no grant is made and the arbiter's state does not change. -/
def execGrant (s : State) : Host.Outcome State Fault Refusal :=
  match s.choice, s.freeTag with
  | some (c, used), some t => .next ({ s with holder := c, used := used }.issue c t)
  | _, _ => .next s

/-! ### Completions (R147, R151) -/

/-- Mark the line of a list that was granted under the tag as completed (R132). -/
def markCompleted (t : Tag) (o : MemOutcome) (ls : List ForwardLine) : List ForwardLine :=
  ls.map (fun l => if l.mark = .granted t then { l with mark := .completed o } else l)

/-- Whether a line of the list is granted and not completed. -/
def anyGranted (ls : List ForwardLine) : Bool :=
  ls.any (fun l => match l.mark with | .granted _ => true | .unissued => false | .completed _ => false)

/-- Whether a line of the list completed with FAULT (R140). -/
def anyFaulted (ls : List ForwardLine) : Bool := ls.any (fun l => l.mark == .completed .fault)

/-- The bytes of a line that a pass-through read addresses are kept, the others ignored (R140). -/
def keepLine (a : Addr) (beats : Nat) (line : Addr) (l : LineData) (buf : ReadBuffer) : ReadBuffer :=
  let hit := fun q => decide (q / 8 < 8 * beats) && line.toNat ≤ a.toNat + q / 8 &&
    decide (a.toNat + q / 8 < line.toNat + 64)
  ⟨bitsOf 1024 (fun q => if hit q then (lineByte l (a.toNat + q / 8 - line.toNat)).getLsbD (q % 8)
      else buf.bits.getLsbD q),
   bitsOf 1024 (fun q => hit q || buf.filled.getLsbD q)⟩

/-- The READ head after a completion of one of its lines (R140). A fault leaves its unissued lines unissued and puts
it in RETURNING. -/
def ForwardEntry.completed (e : ForwardEntry) (c : Completion) (line : Addr) : ForwardEntry :=
  match c.outcome with
  | .ok => { e with
      lines := markCompleted c.tag .ok e.lines
      buffer := keepLine e.address e.beats line c.line e.buffer }
  | .fault => { e with lines := markCompleted c.tag .fault e.lines, state := .returning }

/-- The answer of a READ whose service has ended (R140). -/
def ForwardEntry.readAnswer (e : ForwardEntry) : Answer :=
  if anyFaulted e.lines then .error .fault else .data (e.buffer.bytes (8 * e.beats))

/-- FAULT raises an event, OK none. -/
def State.raiseOn (s : State) (o : MemOutcome) (k : EventKind) (aperture : Option ApertureIdx) (address : Addr)
    (requester : Option Requester) : State :=
  match o with
  | .ok => s
  | .fault => s.raise k aperture address requester

/-- A line read of the READ head completes (R140). -/
def State.completeForwardRead (s : State) (c : Completion) (rec : TagRecord) : State :=
  match s.forward with
  | [] => s
  | e :: rest =>
    let e' := e.completed c rec.line
    let t := s.raiseOn c.outcome .readFault none rec.line (some e.requester)
    if e'.state = .returning ∧ anyGranted e'.lines = false then
      ({ t with forward := rest, port := .idle }.answer e.requester e'.readAnswer).settle []
    else { t with forward := e' :: rest }

/-- A pass-through line write completes (R141). -/
def State.completePosted (s : State) (c : Completion) (rec : TagRecord) : State :=
  match s.posted.find? (fun w => w.tag == c.tag) with
  | none => s.settle []
  | some w =>
    ({ s with posted := s.posted.filter (fun v => v.tag != c.tag) }.raiseOn c.outcome .writeFault none rec.line
      (some w.requester)).settle []

/-- A slot after its merge read came back OK (R91): memory's values at the uncovered bits of the partly covered bytes,
and its line write ready. -/
def Slot.merged (x : Slot) (l : LineData) : Slot :=
  let fromMemory := bitsOfMask (partBytes x.coverage) &&& ~~~x.coverage
  { x with
    data := (x.data &&& ~~~fromMemory) ||| (l &&& fromMemory)
    state := .writing
    request := .ready }

/-- A fault on a fence-marked slot notes a fault in the pending fence (R100). -/
def State.noteFault (s : State) (x : Slot) : State :=
  if s.fence.state = .pending ∧ x.mark = true then { s with fence := { s.fence with fault := true } } else s

/-- A slot's merge read completes (R91, R92). -/
def State.completeMerge (s : State) (k : SlotIdx) (c : Completion) : State :=
  let x := s.slot k
  match c.outcome with
  | .ok => (s.setSlot k (x.merged c.line)).afterSlot false (some x.line)
  | .fault =>
    let t := (s.raise .mergeFault (some x.aperture) x.line none).noteFault x
    if wholeBytes x.coverage = 0#64 then (t.freeSlot k).afterSlot true (some x.line)
    else (t.setSlot k { x with mask := wholeBytes x.coverage, state := .writing, request := .ready }).afterSlot
      false (some x.line)

/-- A slot's line write completes (R93). -/
def State.completeWrite (s : State) (k : SlotIdx) (c : Completion) : State :=
  let x := s.slot k
  match c.outcome with
  | .ok => (s.freeSlot k).afterSlot true none
  | .fault => (((s.raise .writeFault (some x.aperture) x.line none).noteFault x).freeSlot k).afterSlot true none

/-- A job with one of its reads completed; after a fault no further line is issued (R115, R121). -/
def ReadJob.completedOne (j : ReadJob) (t : Tag) (o : MemOutcome) : ReadJob :=
  { j with
    outstanding := j.outstanding.erase t
    completed := j.completed + 1
    unissued := if o = .fault then [] else j.unissued
    faulted := j.faulted || o == .fault }

/-- Whether every issued read has completed and none is left to issue. -/
def ReadJob.ended (j : ReadJob) : Bool := j.outstanding.isEmpty && j.unissued.isEmpty

/-- A line read of an immediate read completes (R115). -/
def State.completeImmediate (s : State) (c : Completion) (rec : TagRecord) : State :=
  match s.gather, s.port with
  | .immediate job buffer, .holding r =>
    match r.service with
    | .immediate i =>
      let f := (s.aperture i).fields
      let t := s.raiseOn c.outcome .readFault (some i) rec.line (some r.requester)
      let job' := job.completedOne c.tag c.outcome
      let buffer' := match c.outcome with
        | .ok => f.fillForward (f.viewOffset r.address) (8 * r.beats) rec.line c.line buffer
        | .fault => buffer
      if job'.ended then
        ({ t with gather := .idle, port := .idle }.answer r.requester
          (if job'.faulted then .error .fault else .data (buffer'.bytes (8 * r.beats)))).settle []
      else { t with gather := .immediate job' buffer' }
    | .passThrough => s
  | _, _ => s

/-- The entry when its gather ends (R121): READY or FAILED, with its expiry time. -/
def Entry.gathered (e : Entry) (faulted : Bool) (expiry : Nat) : Entry :=
  { e with state := if faulted then .failed else .ready, expiry := some expiry }

/-- The entry's buffer with the bits of a returned line placed (R120). -/
def Entry.filled (e : Entry) (f : Fields) (line : Addr) (l : LineData) : Entry :=
  { e with buffer := f.fillInverse (f.viewOffset e.address) (8 * e.beats) line l e.buffer }

/-- The waiting immediate read, if the port holds one (R115, R129). -/
def State.waitingImmediate (s : State) : Option (HeldRead × ApertureIdx) :=
  match s.port with
  | .idle => none
  | .holding r =>
    match r.service with
    | .immediate i => some (r, i)
    | .passThrough => none

/-- The gather engine leaves CANCEL_WAIT (R129): for a waiting immediate read, or to IDLE. -/
def State.afterCancel (s : State) : State :=
  match s.waitingImmediate with
  | none => { s with gather := .idle }
  | some (r, i) =>
    { s with gather :=
        .immediate (ReadJob.start ((s.aperture i).fields.footprint r.address r.beats)) ReadBuffer.blank }

/-- A line read of the GATHERING or CANCELLED entry in place `p` completes (R120, R121, R129). -/
def State.completeEntry (s : State) (p : PlaceIdx) (c : Completion) (rec : TagRecord) : State :=
  match s.place p with
  | none => s
  | some e =>
    let t := s.raiseOn c.outcome .readFault (some e.aperture) rec.line (some e.requester)
    match s.gather with
    | .reading q job =>
      let job' := job.completedOne c.tag c.outcome
      let e' := match c.outcome with
        | .ok => e.filled (s.aperture e.aperture).fields rec.line c.line
        | .fault => e
      if job'.ended then
        { t.setPlace p (some (e'.gathered job'.faulted (s.now + s.timing.discardLimit))) with gather := .idle }.settle []
      else { t.setPlace p (some e') with gather := .reading q job' }
    | .cancelWait q job =>
      let job' := job.completedOne c.tag c.outcome
      if job'.outstanding.isEmpty then (t.freePlace p).afterCancel.settle []
      else { t with gather := .cancelWait q job' }
    | .idle => t
    | .priorWait _ => t
    | .slotWait _ _ => t
    | .immediate _ _ => t

/-- A completion: with a FREE tag it is ignored (R152); otherwise the tag becomes FREE and the owner acts, all in one
event (R151). The port identifies a completion by its tag alone (R152). -/
def State.complete (s : State) (c : Completion) : State :=
  match s.tag c.tag with
  | none => s
  | some rec =>
    let t := s.setTag c.tag none
    match rec.owner with
    | .readHead => t.completeForwardRead c rec
    | .outstandingWrite => t.completePosted c rec
    | .slot k =>
      match rec.kind with
      | .read => t.completeMerge k c
      | .write => t.completeWrite k c
    | .immediateRead => t.completeImmediate c rec
    | .place p => t.completeEntry p c rec

/-- FORWARD_READ_COMPLETION (R140): a completion, which its tag routes to the pass-through read head (log 3). -/
def execForwardReadCompletion (c : Completion) (s : State) : Host.Outcome State Fault Refusal := .next (s.complete c)

/-- FORWARD_WRITE_COMPLETION (R141): a completion, which its tag routes to an outstanding write (log 3). -/
def execForwardWriteCompletion (c : Completion) (s : State) : Host.Outcome State Fault Refusal := .next (s.complete c)

/-- MERGE_READ_COMPLETION (R91, R92): a completion, which its tag routes to a MERGING slot (log 3). -/
def execMergeReadCompletion (c : Completion) (s : State) : Host.Outcome State Fault Refusal := .next (s.complete c)

/-- LINE_WRITE_COMPLETION (R93): a completion, which its tag routes to a WRITING slot (log 3). -/
def execLineWriteCompletion (c : Completion) (s : State) : Host.Outcome State Fault Refusal := .next (s.complete c)

/-- IMMEDIATE_READ_COMPLETION (R115): a completion, which its tag routes to the immediate read (log 3). -/
def execImmediateReadCompletion (c : Completion) (s : State) : Host.Outcome State Fault Refusal := .next (s.complete c)

/-- GATHER_READ_COMPLETION (R121): a completion, which its tag routes to the GATHERING entry (log 3). -/
def execGatherReadCompletion (c : Completion) (s : State) : Host.Outcome State Fault Refusal := .next (s.complete c)

/-- CANCELLED_READ_COMPLETION (R129): a completion, which its tag routes to the CANCELLED entry (log 3). -/
def execCancelledReadCompletion (c : Completion) (s : State) : Host.Outcome State Fault Refusal := .next (s.complete c)

/-- STRAY_COMPLETION (R152): a completion whose tag is FREE is ignored (log 3). -/
def execStrayCompletion (c : Completion) (s : State) : Host.Outcome State Fault Refusal := .next (s.complete c)

end Sys2Proof.Machine
end

