-- ==== Sys2Proof/Machine/Reports.lean ====
section
/-! DEFINITION. Meanings of the commands that read the part: GET_STATUS, GET_APERTURE, GET_EVENTS, DUMP_SLOTS,
DUMP_DEFERRED, with the images of R200. -/

namespace Sys2Proof.Machine

/-! ### GET_STATUS (R167) -/

/-- How many slots are in a state (R103). -/
def State.slotCount (s : State) (st : SlotState) : Nat :=
  (List.finRange 16).countP (fun k => (s.slot k).state == st)

/-- How many entries are in a state (R130). -/
def State.entryCount (s : State) (st : EntryState) : Nat :=
  (List.finRange 4).countP (fun p => match s.place p with | none => false | some e => e.state == st)

/-- The set of apertures DRAINING; bit `i` stands for index `i` (R195). -/
def State.drainingSet (s : State) : Byte :=
  BitVec.ofNat 8 (bitsNat (fun i => (s.apertures.toList.getD i Aperture.cleared).state == .draining) 8)

/-- One byte of a count. -/
def countByte (n : Nat) : Byte := BitVec.ofNat 8 n

/-- The status image (R167, R200). -/
def State.statusImage (s : State) : List Byte :=
  [s.partState.code, s.outcome.code, s.outcome.records] ++
    (List.finRange 8).map (fun i => (s.aperture i).state.code) ++
    [s.drainingSet, countByte s.forward.length, countByte s.intake.length] ++
    [SlotState.free, SlotState.opened, SlotState.merging, SlotState.writing].map (fun st => countByte (s.slotCount st)) ++
    [EntryState.queued, EntryState.gathering, EntryState.ready, EntryState.failed, EntryState.cancelled].map
      (fun st => countByte (s.entryCount st)) ++
    [s.fence.state.code, s.session.code, s.events.flags] ++
    bytesOf 2 s.timing.ageLimit ++ bytesOf 2 s.timing.discardLimit ++ bytesOf 1 s.timing.allowance

/-- A DONE or DONE_FAULT that has been reported becomes IDLE (R102). -/
def Fence.reported (f : Fence) : Fence :=
  match f.state with
  | .done => Fence.cleared
  | .doneFault => Fence.cleared
  | .idle => f
  | .pending => f

/-- GET_STATUS's own rule (R102, R167): the image of the state before the fence's return to IDLE (log 13). -/
def statusDecider : Decider := fun _ s => (.ok s.statusImage, { s with fence := s.fence.reported })

/-- GET_STATUS (R167). -/
def execGetStatus (f : Frame) (s : State) : Host.Outcome State Fault Refusal :=
  .next (s.takeFrame codeGetStatus f statusDecider)

/-! ### GET_APERTURE (R168) -/

/-- An aperture's state byte and image (R168, R197). -/
def Aperture.report (a : Aperture) : List Byte := a.state.code :: a.fields.image

/-- GET_APERTURE's own rule. -/
def apertureDecider : Decider := fun args s =>
  match indexOf (byteAt args 0) with
  | none => (.invalid .index, s)
  | some i => (.ok (s.aperture i).report, s)

/-- GET_APERTURE (R168). -/
def execGetAperture (f : Frame) (s : State) : Host.Outcome State Fault Refusal :=
  .next (s.takeFrame codeGetAperture f apertureDecider)

/-! ### GET_EVENTS (R175) -/

/-- FFh for none, otherwise the number (R195). -/
def numberOrNone (n : Option Nat) : Byte :=
  match n with
  | none => 0xFF#8
  | some k => BitVec.ofNat 8 k

/-- The last-fault record in the event image (R200). -/
def lastFaultImage (r : Option LastFault) : List Byte :=
  match r with
  | none => [0xFF#8, 0xFF#8, 0#8, 0#8, 0#8, 0#8, 0xFF#8]
  | some r =>
    [BitVec.ofNat 8 r.kind.number.val, numberOrNone (r.aperture.map (·.val))] ++ bytesOf 4 r.address.toNat ++
      [numberOrNone (r.requester.map (·.val))]

/-- The event image (R175, R200). -/
def EventUnit.image (e : EventUnit) : List Byte :=
  [e.flags] ++ e.counts.toList ++ lastFaultImage e.lastFault ++ [e.attention]

/-- GET_EVENTS's own rule. -/
def eventsDecider : Decider := fun _ s => (.ok s.events.image, s)

/-- GET_EVENTS (R175). -/
def execGetEvents (f : Frame) (s : State) : Host.Outcome State Fault Refusal :=
  .next (s.takeFrame codeGetEvents f eventsDecider)

/-! ### DUMP_SLOTS (R169) -/

/-- A slot record (R200). -/
def Slot.record (x : Slot) : List Byte :=
  [x.state.code] ++ bytesOf 4 x.line.toNat ++ [BitVec.ofNat 8 x.aperture.val] ++ bytesOf 2 (bitCount x.coverage) ++
    [flagByte x.mark, x.reason.code]

/-- DUMP_SLOTS's own rule. -/
def slotsDecider : Decider := fun _ s => (.ok ((List.finRange 16).flatMap (fun k => (s.slot k).record)), s)

/-- DUMP_SLOTS (R169). -/
def execDumpSlots (f : Frame) (s : State) : Host.Outcome State Fault Refusal :=
  .next (s.takeFrame codeDumpSlots f slotsDecider)

/-! ### DUMP_DEFERRED (R170) -/

/-- Whether footprint lines and lines completed are reported of an entry in this state (R170). -/
def EntryState.reportsLines : EntryState → Bool
  | .queued => false
  | .gathering => true
  | .ready => false
  | .failed => false
  | .cancelled => true

/-- How many line reads of the entry in place `p` have completed, with either outcome (R130, log 24). -/
def Gather.completedFor (g : Gather) (p : PlaceIdx) : Nat :=
  match g with
  | .reading q job => if q = p then job.completed else 0
  | .cancelWait q job => if q = p then job.completed else 0
  | .idle => 0
  | .priorWait _ => 0
  | .slotWait _ _ => 0
  | .immediate _ _ => 0

/-- A place record (R170, R200). -/
def State.placeRecord (s : State) (p : PlaceIdx) : List Byte :=
  match s.place p with
  | none => List.replicate 15 0#8
  | some e =>
    [e.state.code, BitVec.ofNat 8 e.requester.val] ++ bytesOf 4 e.address.toNat ++
      [countByte e.beats, BitVec.ofNat 8 e.aperture.val, flagByte e.stale] ++
      bytesOf 2 (match e.expiry with | none => 0 | some x => x - s.now) ++
      bytesOf 2 (if e.state.reportsLines then (s.entryFootprint e).length else 0) ++
      bytesOf 2 (if e.state.reportsLines then s.gather.completedFor p else 0)

/-- DUMP_DEFERRED's own rule. -/
def deferredDecider : Decider := fun _ s => (.ok ((List.finRange 4).flatMap s.placeRecord), s)

/-- DUMP_DEFERRED (R170). -/
def execDumpDeferred (f : Frame) (s : State) : Host.Outcome State Fault Refusal :=
  .next (s.takeFrame codeDumpDeferred f deferredDecider)

end Sys2Proof.Machine
end

