-- ==== Sys2Proof/Machine/ScatterFamily.lean ====
section
/-! DEFINITION. Meaning of PLACEMENT: one step of the scatter engine (04_write_intake_and_scatter.md). -/

namespace Sys2Proof.Machine

/-- PLACEMENT (R68): in PLACING the engine applies R68 to the element at the cursor. When the record leaves the intake
(R63), what waited for that goes on in the same event; otherwise only the slots this event closes are closed (FULL,
R84; EVICT, R86). In the other states the cursor stands still (R67). -/
def execPlacement (s : State) : Host.Outcome State Fault Refusal :=
  match s.scatter.state with
  | .placing =>
    let d := s.scatterStep
    .next (if d.left then d.state.settle d.causes else d.state.closeFor d.causes)
  | .idle => .next s
  | .waitSlot => .next s
  | .waitMerge => .next s

end Sys2Proof.Machine
end

