-- ==== Sys2Proof/Machine/SettingsFamily.lean ====
section
/-! DEFINITION. Meanings of FENCE (R96), CLEAR_EVENTS (R176), SET_TIMING (R172) and SET_ATTENTION (R177). -/

namespace Sys2Proof.Machine

/-! ### FENCE (R96) -/

/-- The slots that are not FREE, in slot order. -/
def State.busySlots (s : State) : List SlotIdx := (List.finRange 16).filter (fun k => (s.slot k).state != .free)

/-- The effect of an accepted FENCE (R96). -/
def State.beginFence (s : State) : State :=
  ({ s with fence := ⟨.pending, some (s.takePrior none), false⟩ }.markSlots s.busySlots).settle
    [⟨.fence, s.openOrder⟩]

/-- FENCE's own rule. -/
def fenceDecider : Decider := fun _ s =>
  if s.fence.state = .pending then (.busy, s) else (.accepted, s.beginFence)

/-- FENCE (R96). -/
def execFence (f : Frame) (s : State) : Host.Outcome State Fault Refusal :=
  .next (s.takeFrame codeFence f fenceDecider)

/-! ### CLEAR_EVENTS (R176) -/

/-- CLEAR_EVENTS's own rule. -/
def clearDecider : Decider := fun args s => (.ok [], { s with events := s.events.clear (byteAt args 0) })

/-- CLEAR_EVENTS (R176). -/
def execClearEvents (f : Frame) (s : State) : Host.Outcome State Fault Refusal :=
  .next (s.takeFrame codeClearEvents f clearDecider)

/-! ### SET_TIMING (R172) -/

/-- The settings take new values, and the OPEN slots whose new deadline has been reached close with reason AGE (R85,
R172). -/
def State.retime (s : State) (timing : Timing) : State :=
  let t := { s with timing := timing }
  t.closeFor [⟨.age, t.agedBy t.now⟩]

/-- SET_TIMING's own rule. -/
def timingDecider : Decider := fun args s =>
  if (timingOf args).acceptable then (.ok [], s.retime (timingOf args)) else (.invalid .field, s)

/-- SET_TIMING (R172). -/
def execSetTiming (f : Frame) (s : State) : Host.Outcome State Fault Refusal :=
  .next (s.takeFrame codeSetTiming f timingDecider)

/-! ### SET_ATTENTION (R177) -/

/-- SET_ATTENTION's own rule. -/
def attentionDecider : Decider := fun args s =>
  (.ok [], { s with events := { s.events with attention := byteAt args 0 } })

/-- SET_ATTENTION (R177). -/
def execSetAttention (f : Frame) (s : State) : Host.Outcome State Fault Refusal :=
  .next (s.takeFrame codeSetAttention f attentionDecider)

end Sys2Proof.Machine
end

