-- ==== Sys2Proof/Machine/Timers.lean ====
section
/-! DEFINITION. Meanings of AGE_EXPIRY (R85) and DISCARD_EXPIRY (R126), and the tick of an empty queue. -/

namespace Sys2Proof.Machine

/-- AGE_EXPIRY (R85): the time reaches the slot's age deadline, and the slot closes with reason AGE. A slot that is not
OPEN, or an age limit of 0, has no deadline to reach (section 5.3, R85). -/
def execAgeExpiry (k : SlotIdx) (s : State) : Host.Outcome State Fault Refusal :=
  match (s.slot k).state, s.ageDeadline (s.slot k) with
  | .opened, some d => .next (s.passTime (max s.now d))
  | _, _ => .next s

/-- DISCARD_EXPIRY (R126): the time reaches the expiry time of the entry in the place, which is freed with DISCARD. A
place without a READY or FAILED entry has no expiry time to reach (R106). -/
def execDiscardExpiry (p : PlaceIdx) (s : State) : Host.Outcome State Fault Refusal :=
  match s.expiryOf p with
  | some x => .next (s.passTime (max s.now x))
  | none => .next s

/-- One microsecond passes on an empty queue (DESIGN CHOICE, log 1). -/
def State.tick (s : State) : State := s.passTime (s.now + 1)

end Sys2Proof.Machine
end

