-- ==== Sys2Proof/Machine/Dispatch.lean ====
section
/-! DEFINITION. The meaning of every command: one arm for each constructor of Instr. -/

namespace Sys2Proof.Machine

def exec (i : Instr) (s : State) : Host.Outcome State Fault Refusal :=
  match i with
  | .resetNAsserted => Sys2Proof.Machine.execResetNAsserted s
  | .resetNReleased => Sys2Proof.Machine.execResetNReleased s
  | .headerReceived header => Sys2Proof.Machine.execHeaderReceived header s
  | .imageReadEnd rest => Sys2Proof.Machine.execImageReadEnd rest s
  | .checksEnd => Sys2Proof.Machine.execChecksEnd s
  | .installEvent => Sys2Proof.Machine.execInstallEvent s
  | .request r => Sys2Proof.Machine.execRequest r s
  | .placement => Sys2Proof.Machine.execPlacement s
  | .grant => Sys2Proof.Machine.execGrant s
  | .forwardReadCompletion c => Sys2Proof.Machine.execForwardReadCompletion c s
  | .forwardWriteCompletion c => Sys2Proof.Machine.execForwardWriteCompletion c s
  | .mergeReadCompletion c => Sys2Proof.Machine.execMergeReadCompletion c s
  | .lineWriteCompletion c => Sys2Proof.Machine.execLineWriteCompletion c s
  | .immediateReadCompletion c => Sys2Proof.Machine.execImmediateReadCompletion c s
  | .gatherReadCompletion c => Sys2Proof.Machine.execGatherReadCompletion c s
  | .cancelledReadCompletion c => Sys2Proof.Machine.execCancelledReadCompletion c s
  | .strayCompletion c => Sys2Proof.Machine.execStrayCompletion c s
  | .ageExpiry slot => Sys2Proof.Machine.execAgeExpiry slot s
  | .discardExpiry place => Sys2Proof.Machine.execDiscardExpiry place s
  | .shortFrame => Sys2Proof.Machine.execShortFrame s
  | .unknownCodeFrame code f => Sys2Proof.Machine.execUnknownCodeFrame code f s
  | .getStatus f => Sys2Proof.Machine.execGetStatus f s
  | .getAperture f => Sys2Proof.Machine.execGetAperture f s
  | .getEvents f => Sys2Proof.Machine.execGetEvents f s
  | .dumpSlots f => Sys2Proof.Machine.execDumpSlots f s
  | .dumpDeferred f => Sys2Proof.Machine.execDumpDeferred f s
  | .stage f => Sys2Proof.Machine.execStage f s
  | .commit f => Sys2Proof.Machine.execCommit f s
  | .suspend f => Sys2Proof.Machine.execSuspend f s
  | .resume f => Sys2Proof.Machine.execResume f s
  | .retire f => Sys2Proof.Machine.execRetire f s
  | .fence f => Sys2Proof.Machine.execFence f s
  | .clearEvents f => Sys2Proof.Machine.execClearEvents f s
  | .setTiming f => Sys2Proof.Machine.execSetTiming f s
  | .setAttention f => Sys2Proof.Machine.execSetAttention f s
  | .flashOpen f => Sys2Proof.Machine.execFlashOpen f s
  | .flashXfer f flashIn => Sys2Proof.Machine.execFlashXfer f flashIn s
  | .flashClose f => Sys2Proof.Machine.execFlashClose f s
  | .restart f => Sys2Proof.Machine.execRestart f s
  | .selectionStart => Sys2Proof.Machine.execSelectionStart s
  | .selectionEnd => Sys2Proof.Machine.execSelectionEnd s
  | .responseEnd => Sys2Proof.Machine.execResponseEnd s

end Sys2Proof.Machine
end

