-- ==== Sys2Proof/Machine/Step.lean ====
section
/-! DEFINITION. One step of the block: the command at the front of the queue, or a microsecond of idling. -/

namespace Sys2Proof.Machine

/-- The state without its queue's front command, the queue's rest being `rest`. -/
def State.withPending (s : State) (rest : List Instr) : State := { s with pending := rest }

/-- The block takes the command at the front of its queue. On an empty queue a microsecond passes (DESIGN CHOICE,
log 1). -/
def step (s : State) : Host.Outcome State Fault Refusal :=
  match s.pending with
  | [] => .next s.tick
  | c :: rest => exec c (s.withPending rest)

/-- The state with the command a word spells put at the front of its queue, unchanged where the word spells none. -/
def State.withFetchWord (s : State) (nbits w : Nat) : State :=
  match decodeTableWord nbits w with
  | none => s
  | some c => s.withPending (c :: s.pending)

end Sys2Proof.Machine
end

