-- ==== Sys2Proof/Laws/State.lean ====
section
/-! SUPPORT. What each named update of State leaves in each field, so that no proof unfolds a record update. -/

namespace Sys2Proof.Machine

/-! ### setAperture -/

@[simp] theorem State.setAperture_pending (s : State) (i : ApertureIdx) (a : Aperture) :
    (s.setAperture i a).pending = s.pending := rfl
@[simp] theorem State.setAperture_now (s : State) (i : ApertureIdx) (a : Aperture) :
    (s.setAperture i a).now = s.now := rfl
@[simp] theorem State.setAperture_partState (s : State) (i : ApertureIdx) (a : Aperture) :
    (s.setAperture i a).partState = s.partState := rfl
@[simp] theorem State.setAperture_ready (s : State) (i : ApertureIdx) (a : Aperture) :
    (s.setAperture i a).ready = s.ready := rfl
@[simp] theorem State.setAperture_loader (s : State) (i : ApertureIdx) (a : Aperture) :
    (s.setAperture i a).loader = s.loader := rfl
@[simp] theorem State.setAperture_outcome (s : State) (i : ApertureIdx) (a : Aperture) :
    (s.setAperture i a).outcome = s.outcome := rfl
@[simp] theorem State.setAperture_session (s : State) (i : ApertureIdx) (a : Aperture) :
    (s.setAperture i a).session = s.session := rfl
@[simp] theorem State.setAperture_flash (s : State) (i : ApertureIdx) (a : Aperture) :
    (s.setAperture i a).flash = s.flash := rfl
@[simp] theorem State.setAperture_apertures (s : State) (i : ApertureIdx) (a : Aperture) :
    (s.setAperture i a).apertures = s.apertures.set i a := rfl
@[simp] theorem State.setAperture_staging (s : State) (i : ApertureIdx) (a : Aperture) :
    (s.setAperture i a).staging = s.staging := rfl
@[simp] theorem State.setAperture_port (s : State) (i : ApertureIdx) (a : Aperture) :
    (s.setAperture i a).port = s.port := rfl
@[simp] theorem State.setAperture_intake (s : State) (i : ApertureIdx) (a : Aperture) :
    (s.setAperture i a).intake = s.intake := rfl
@[simp] theorem State.setAperture_acceptCount (s : State) (i : ApertureIdx) (a : Aperture) :
    (s.setAperture i a).acceptCount = s.acceptCount := rfl
@[simp] theorem State.setAperture_scatter (s : State) (i : ApertureIdx) (a : Aperture) :
    (s.setAperture i a).scatter = s.scatter := rfl
@[simp] theorem State.setAperture_slots (s : State) (i : ApertureIdx) (a : Aperture) :
    (s.setAperture i a).slots = s.slots := rfl
@[simp] theorem State.setAperture_openOrder (s : State) (i : ApertureIdx) (a : Aperture) :
    (s.setAperture i a).openOrder = s.openOrder := rfl
@[simp] theorem State.setAperture_flushOrder (s : State) (i : ApertureIdx) (a : Aperture) :
    (s.setAperture i a).flushOrder = s.flushOrder := rfl
@[simp] theorem State.setAperture_fence (s : State) (i : ApertureIdx) (a : Aperture) :
    (s.setAperture i a).fence = s.fence := rfl
@[simp] theorem State.setAperture_places (s : State) (i : ApertureIdx) (a : Aperture) :
    (s.setAperture i a).places = s.places := rfl
@[simp] theorem State.setAperture_queuedOrder (s : State) (i : ApertureIdx) (a : Aperture) :
    (s.setAperture i a).queuedOrder = s.queuedOrder := rfl
@[simp] theorem State.setAperture_gather (s : State) (i : ApertureIdx) (a : Aperture) :
    (s.setAperture i a).gather = s.gather := rfl
@[simp] theorem State.setAperture_forward (s : State) (i : ApertureIdx) (a : Aperture) :
    (s.setAperture i a).forward = s.forward := rfl
@[simp] theorem State.setAperture_posted (s : State) (i : ApertureIdx) (a : Aperture) :
    (s.setAperture i a).posted = s.posted := rfl
@[simp] theorem State.setAperture_tags (s : State) (i : ApertureIdx) (a : Aperture) :
    (s.setAperture i a).tags = s.tags := rfl
@[simp] theorem State.setAperture_holder (s : State) (i : ApertureIdx) (a : Aperture) :
    (s.setAperture i a).holder = s.holder := rfl
@[simp] theorem State.setAperture_used (s : State) (i : ApertureIdx) (a : Aperture) :
    (s.setAperture i a).used = s.used := rfl
@[simp] theorem State.setAperture_timing (s : State) (i : ApertureIdx) (a : Aperture) :
    (s.setAperture i a).timing = s.timing := rfl
@[simp] theorem State.setAperture_events (s : State) (i : ApertureIdx) (a : Aperture) :
    (s.setAperture i a).events = s.events := rfl
@[simp] theorem State.setAperture_receiver (s : State) (i : ApertureIdx) (a : Aperture) :
    (s.setAperture i a).receiver = s.receiver := rfl
@[simp] theorem State.setAperture_trace (s : State) (i : ApertureIdx) (a : Aperture) :
    (s.setAperture i a).trace = s.trace := rfl
@[simp] theorem State.setAperture_freeCount (s : State) (i : ApertureIdx) (a : Aperture) :
    (s.setAperture i a).freeCount = s.freeCount := rfl

/-! ### setSlot -/

@[simp] theorem State.setSlot_pending (s : State) (k : SlotIdx) (x : Slot) : (s.setSlot k x).pending = s.pending := rfl
@[simp] theorem State.setSlot_now (s : State) (k : SlotIdx) (x : Slot) : (s.setSlot k x).now = s.now := rfl
@[simp] theorem State.setSlot_partState (s : State) (k : SlotIdx) (x : Slot) :
    (s.setSlot k x).partState = s.partState := rfl
@[simp] theorem State.setSlot_ready (s : State) (k : SlotIdx) (x : Slot) : (s.setSlot k x).ready = s.ready := rfl
@[simp] theorem State.setSlot_loader (s : State) (k : SlotIdx) (x : Slot) : (s.setSlot k x).loader = s.loader := rfl
@[simp] theorem State.setSlot_outcome (s : State) (k : SlotIdx) (x : Slot) : (s.setSlot k x).outcome = s.outcome := rfl
@[simp] theorem State.setSlot_session (s : State) (k : SlotIdx) (x : Slot) : (s.setSlot k x).session = s.session := rfl
@[simp] theorem State.setSlot_flash (s : State) (k : SlotIdx) (x : Slot) : (s.setSlot k x).flash = s.flash := rfl
@[simp] theorem State.setSlot_apertures (s : State) (k : SlotIdx) (x : Slot) :
    (s.setSlot k x).apertures = s.apertures := rfl
@[simp] theorem State.setSlot_staging (s : State) (k : SlotIdx) (x : Slot) : (s.setSlot k x).staging = s.staging := rfl
@[simp] theorem State.setSlot_port (s : State) (k : SlotIdx) (x : Slot) : (s.setSlot k x).port = s.port := rfl
@[simp] theorem State.setSlot_intake (s : State) (k : SlotIdx) (x : Slot) : (s.setSlot k x).intake = s.intake := rfl
@[simp] theorem State.setSlot_acceptCount (s : State) (k : SlotIdx) (x : Slot) :
    (s.setSlot k x).acceptCount = s.acceptCount := rfl
@[simp] theorem State.setSlot_scatter (s : State) (k : SlotIdx) (x : Slot) : (s.setSlot k x).scatter = s.scatter := rfl
@[simp] theorem State.setSlot_slots (s : State) (k : SlotIdx) (x : Slot) :
    (s.setSlot k x).slots = s.slots.set k x := rfl
@[simp] theorem State.setSlot_openOrder (s : State) (k : SlotIdx) (x : Slot) :
    (s.setSlot k x).openOrder = s.openOrder := rfl
@[simp] theorem State.setSlot_flushOrder (s : State) (k : SlotIdx) (x : Slot) :
    (s.setSlot k x).flushOrder = s.flushOrder := rfl
@[simp] theorem State.setSlot_fence (s : State) (k : SlotIdx) (x : Slot) : (s.setSlot k x).fence = s.fence := rfl
@[simp] theorem State.setSlot_places (s : State) (k : SlotIdx) (x : Slot) : (s.setSlot k x).places = s.places := rfl
@[simp] theorem State.setSlot_queuedOrder (s : State) (k : SlotIdx) (x : Slot) :
    (s.setSlot k x).queuedOrder = s.queuedOrder := rfl
@[simp] theorem State.setSlot_gather (s : State) (k : SlotIdx) (x : Slot) : (s.setSlot k x).gather = s.gather := rfl
@[simp] theorem State.setSlot_forward (s : State) (k : SlotIdx) (x : Slot) : (s.setSlot k x).forward = s.forward := rfl
@[simp] theorem State.setSlot_posted (s : State) (k : SlotIdx) (x : Slot) : (s.setSlot k x).posted = s.posted := rfl
@[simp] theorem State.setSlot_tags (s : State) (k : SlotIdx) (x : Slot) : (s.setSlot k x).tags = s.tags := rfl
@[simp] theorem State.setSlot_holder (s : State) (k : SlotIdx) (x : Slot) : (s.setSlot k x).holder = s.holder := rfl
@[simp] theorem State.setSlot_used (s : State) (k : SlotIdx) (x : Slot) : (s.setSlot k x).used = s.used := rfl
@[simp] theorem State.setSlot_timing (s : State) (k : SlotIdx) (x : Slot) : (s.setSlot k x).timing = s.timing := rfl
@[simp] theorem State.setSlot_events (s : State) (k : SlotIdx) (x : Slot) : (s.setSlot k x).events = s.events := rfl
@[simp] theorem State.setSlot_receiver (s : State) (k : SlotIdx) (x : Slot) :
    (s.setSlot k x).receiver = s.receiver := rfl
@[simp] theorem State.setSlot_trace (s : State) (k : SlotIdx) (x : Slot) : (s.setSlot k x).trace = s.trace := rfl
@[simp] theorem State.setSlot_freeCount (s : State) (k : SlotIdx) (x : Slot) :
    (s.setSlot k x).freeCount = s.freeCount := rfl

/-! ### setPlace -/

@[simp] theorem State.setPlace_pending (s : State) (p : PlaceIdx) (e : Option Entry) :
    (s.setPlace p e).pending = s.pending := rfl
@[simp] theorem State.setPlace_now (s : State) (p : PlaceIdx) (e : Option Entry) : (s.setPlace p e).now = s.now := rfl
@[simp] theorem State.setPlace_partState (s : State) (p : PlaceIdx) (e : Option Entry) :
    (s.setPlace p e).partState = s.partState := rfl
@[simp] theorem State.setPlace_ready (s : State) (p : PlaceIdx) (e : Option Entry) :
    (s.setPlace p e).ready = s.ready := rfl
@[simp] theorem State.setPlace_loader (s : State) (p : PlaceIdx) (e : Option Entry) :
    (s.setPlace p e).loader = s.loader := rfl
@[simp] theorem State.setPlace_outcome (s : State) (p : PlaceIdx) (e : Option Entry) :
    (s.setPlace p e).outcome = s.outcome := rfl
@[simp] theorem State.setPlace_session (s : State) (p : PlaceIdx) (e : Option Entry) :
    (s.setPlace p e).session = s.session := rfl
@[simp] theorem State.setPlace_flash (s : State) (p : PlaceIdx) (e : Option Entry) :
    (s.setPlace p e).flash = s.flash := rfl
@[simp] theorem State.setPlace_apertures (s : State) (p : PlaceIdx) (e : Option Entry) :
    (s.setPlace p e).apertures = s.apertures := rfl
@[simp] theorem State.setPlace_staging (s : State) (p : PlaceIdx) (e : Option Entry) :
    (s.setPlace p e).staging = s.staging := rfl
@[simp] theorem State.setPlace_port (s : State) (p : PlaceIdx) (e : Option Entry) :
    (s.setPlace p e).port = s.port := rfl
@[simp] theorem State.setPlace_intake (s : State) (p : PlaceIdx) (e : Option Entry) :
    (s.setPlace p e).intake = s.intake := rfl
@[simp] theorem State.setPlace_acceptCount (s : State) (p : PlaceIdx) (e : Option Entry) :
    (s.setPlace p e).acceptCount = s.acceptCount := rfl
@[simp] theorem State.setPlace_scatter (s : State) (p : PlaceIdx) (e : Option Entry) :
    (s.setPlace p e).scatter = s.scatter := rfl
@[simp] theorem State.setPlace_slots (s : State) (p : PlaceIdx) (e : Option Entry) :
    (s.setPlace p e).slots = s.slots := rfl
@[simp] theorem State.setPlace_openOrder (s : State) (p : PlaceIdx) (e : Option Entry) :
    (s.setPlace p e).openOrder = s.openOrder := rfl
@[simp] theorem State.setPlace_flushOrder (s : State) (p : PlaceIdx) (e : Option Entry) :
    (s.setPlace p e).flushOrder = s.flushOrder := rfl
@[simp] theorem State.setPlace_fence (s : State) (p : PlaceIdx) (e : Option Entry) :
    (s.setPlace p e).fence = s.fence := rfl
@[simp] theorem State.setPlace_places (s : State) (p : PlaceIdx) (e : Option Entry) :
    (s.setPlace p e).places = s.places.set p e := rfl
@[simp] theorem State.setPlace_queuedOrder (s : State) (p : PlaceIdx) (e : Option Entry) :
    (s.setPlace p e).queuedOrder = s.queuedOrder := rfl
@[simp] theorem State.setPlace_gather (s : State) (p : PlaceIdx) (e : Option Entry) :
    (s.setPlace p e).gather = s.gather := rfl
@[simp] theorem State.setPlace_forward (s : State) (p : PlaceIdx) (e : Option Entry) :
    (s.setPlace p e).forward = s.forward := rfl
@[simp] theorem State.setPlace_posted (s : State) (p : PlaceIdx) (e : Option Entry) :
    (s.setPlace p e).posted = s.posted := rfl
@[simp] theorem State.setPlace_tags (s : State) (p : PlaceIdx) (e : Option Entry) :
    (s.setPlace p e).tags = s.tags := rfl
@[simp] theorem State.setPlace_holder (s : State) (p : PlaceIdx) (e : Option Entry) :
    (s.setPlace p e).holder = s.holder := rfl
@[simp] theorem State.setPlace_used (s : State) (p : PlaceIdx) (e : Option Entry) :
    (s.setPlace p e).used = s.used := rfl
@[simp] theorem State.setPlace_timing (s : State) (p : PlaceIdx) (e : Option Entry) :
    (s.setPlace p e).timing = s.timing := rfl
@[simp] theorem State.setPlace_events (s : State) (p : PlaceIdx) (e : Option Entry) :
    (s.setPlace p e).events = s.events := rfl
@[simp] theorem State.setPlace_receiver (s : State) (p : PlaceIdx) (e : Option Entry) :
    (s.setPlace p e).receiver = s.receiver := rfl
@[simp] theorem State.setPlace_trace (s : State) (p : PlaceIdx) (e : Option Entry) :
    (s.setPlace p e).trace = s.trace := rfl
@[simp] theorem State.setPlace_freeCount (s : State) (p : PlaceIdx) (e : Option Entry) :
    (s.setPlace p e).freeCount = s.freeCount := rfl

/-! ### setTag -/

@[simp] theorem State.setTag_pending (s : State) (t : Tag) (r : Option TagRecord) :
    (s.setTag t r).pending = s.pending := rfl
@[simp] theorem State.setTag_now (s : State) (t : Tag) (r : Option TagRecord) : (s.setTag t r).now = s.now := rfl
@[simp] theorem State.setTag_partState (s : State) (t : Tag) (r : Option TagRecord) :
    (s.setTag t r).partState = s.partState := rfl
@[simp] theorem State.setTag_ready (s : State) (t : Tag) (r : Option TagRecord) : (s.setTag t r).ready = s.ready := rfl
@[simp] theorem State.setTag_loader (s : State) (t : Tag) (r : Option TagRecord) :
    (s.setTag t r).loader = s.loader := rfl
@[simp] theorem State.setTag_outcome (s : State) (t : Tag) (r : Option TagRecord) :
    (s.setTag t r).outcome = s.outcome := rfl
@[simp] theorem State.setTag_session (s : State) (t : Tag) (r : Option TagRecord) :
    (s.setTag t r).session = s.session := rfl
@[simp] theorem State.setTag_flash (s : State) (t : Tag) (r : Option TagRecord) : (s.setTag t r).flash = s.flash := rfl
@[simp] theorem State.setTag_apertures (s : State) (t : Tag) (r : Option TagRecord) :
    (s.setTag t r).apertures = s.apertures := rfl
@[simp] theorem State.setTag_staging (s : State) (t : Tag) (r : Option TagRecord) :
    (s.setTag t r).staging = s.staging := rfl
@[simp] theorem State.setTag_port (s : State) (t : Tag) (r : Option TagRecord) : (s.setTag t r).port = s.port := rfl
@[simp] theorem State.setTag_intake (s : State) (t : Tag) (r : Option TagRecord) :
    (s.setTag t r).intake = s.intake := rfl
@[simp] theorem State.setTag_acceptCount (s : State) (t : Tag) (r : Option TagRecord) :
    (s.setTag t r).acceptCount = s.acceptCount := rfl
@[simp] theorem State.setTag_scatter (s : State) (t : Tag) (r : Option TagRecord) :
    (s.setTag t r).scatter = s.scatter := rfl
@[simp] theorem State.setTag_slots (s : State) (t : Tag) (r : Option TagRecord) : (s.setTag t r).slots = s.slots := rfl
@[simp] theorem State.setTag_openOrder (s : State) (t : Tag) (r : Option TagRecord) :
    (s.setTag t r).openOrder = s.openOrder := rfl
@[simp] theorem State.setTag_flushOrder (s : State) (t : Tag) (r : Option TagRecord) :
    (s.setTag t r).flushOrder = s.flushOrder := rfl
@[simp] theorem State.setTag_fence (s : State) (t : Tag) (r : Option TagRecord) : (s.setTag t r).fence = s.fence := rfl
@[simp] theorem State.setTag_places (s : State) (t : Tag) (r : Option TagRecord) :
    (s.setTag t r).places = s.places := rfl
@[simp] theorem State.setTag_queuedOrder (s : State) (t : Tag) (r : Option TagRecord) :
    (s.setTag t r).queuedOrder = s.queuedOrder := rfl
@[simp] theorem State.setTag_gather (s : State) (t : Tag) (r : Option TagRecord) :
    (s.setTag t r).gather = s.gather := rfl
@[simp] theorem State.setTag_forward (s : State) (t : Tag) (r : Option TagRecord) :
    (s.setTag t r).forward = s.forward := rfl
@[simp] theorem State.setTag_posted (s : State) (t : Tag) (r : Option TagRecord) :
    (s.setTag t r).posted = s.posted := rfl
@[simp] theorem State.setTag_tags (s : State) (t : Tag) (r : Option TagRecord) :
    (s.setTag t r).tags = s.tags.set t r := rfl
@[simp] theorem State.setTag_holder (s : State) (t : Tag) (r : Option TagRecord) :
    (s.setTag t r).holder = s.holder := rfl
@[simp] theorem State.setTag_used (s : State) (t : Tag) (r : Option TagRecord) : (s.setTag t r).used = s.used := rfl
@[simp] theorem State.setTag_timing (s : State) (t : Tag) (r : Option TagRecord) :
    (s.setTag t r).timing = s.timing := rfl
@[simp] theorem State.setTag_events (s : State) (t : Tag) (r : Option TagRecord) :
    (s.setTag t r).events = s.events := rfl
@[simp] theorem State.setTag_receiver (s : State) (t : Tag) (r : Option TagRecord) :
    (s.setTag t r).receiver = s.receiver := rfl
@[simp] theorem State.setTag_trace (s : State) (t : Tag) (r : Option TagRecord) : (s.setTag t r).trace = s.trace := rfl
@[simp] theorem State.setTag_freeCount (s : State) (t : Tag) (r : Option TagRecord) :
    (s.setTag t r).freeCount = s.freeCount := rfl

/-! ### emit -/

@[simp] theorem State.emit_pending (s : State) (o : Output) : (s.emit o).pending = s.pending := rfl
@[simp] theorem State.emit_now (s : State) (o : Output) : (s.emit o).now = s.now := rfl
@[simp] theorem State.emit_partState (s : State) (o : Output) : (s.emit o).partState = s.partState := rfl
@[simp] theorem State.emit_ready (s : State) (o : Output) : (s.emit o).ready = s.ready := rfl
@[simp] theorem State.emit_loader (s : State) (o : Output) : (s.emit o).loader = s.loader := rfl
@[simp] theorem State.emit_outcome (s : State) (o : Output) : (s.emit o).outcome = s.outcome := rfl
@[simp] theorem State.emit_session (s : State) (o : Output) : (s.emit o).session = s.session := rfl
@[simp] theorem State.emit_flash (s : State) (o : Output) : (s.emit o).flash = s.flash := rfl
@[simp] theorem State.emit_apertures (s : State) (o : Output) : (s.emit o).apertures = s.apertures := rfl
@[simp] theorem State.emit_staging (s : State) (o : Output) : (s.emit o).staging = s.staging := rfl
@[simp] theorem State.emit_port (s : State) (o : Output) : (s.emit o).port = s.port := rfl
@[simp] theorem State.emit_intake (s : State) (o : Output) : (s.emit o).intake = s.intake := rfl
@[simp] theorem State.emit_acceptCount (s : State) (o : Output) : (s.emit o).acceptCount = s.acceptCount := rfl
@[simp] theorem State.emit_scatter (s : State) (o : Output) : (s.emit o).scatter = s.scatter := rfl
@[simp] theorem State.emit_slots (s : State) (o : Output) : (s.emit o).slots = s.slots := rfl
@[simp] theorem State.emit_openOrder (s : State) (o : Output) : (s.emit o).openOrder = s.openOrder := rfl
@[simp] theorem State.emit_flushOrder (s : State) (o : Output) : (s.emit o).flushOrder = s.flushOrder := rfl
@[simp] theorem State.emit_fence (s : State) (o : Output) : (s.emit o).fence = s.fence := rfl
@[simp] theorem State.emit_places (s : State) (o : Output) : (s.emit o).places = s.places := rfl
@[simp] theorem State.emit_queuedOrder (s : State) (o : Output) : (s.emit o).queuedOrder = s.queuedOrder := rfl
@[simp] theorem State.emit_gather (s : State) (o : Output) : (s.emit o).gather = s.gather := rfl
@[simp] theorem State.emit_forward (s : State) (o : Output) : (s.emit o).forward = s.forward := rfl
@[simp] theorem State.emit_posted (s : State) (o : Output) : (s.emit o).posted = s.posted := rfl
@[simp] theorem State.emit_tags (s : State) (o : Output) : (s.emit o).tags = s.tags := rfl
@[simp] theorem State.emit_holder (s : State) (o : Output) : (s.emit o).holder = s.holder := rfl
@[simp] theorem State.emit_used (s : State) (o : Output) : (s.emit o).used = s.used := rfl
@[simp] theorem State.emit_timing (s : State) (o : Output) : (s.emit o).timing = s.timing := rfl
@[simp] theorem State.emit_events (s : State) (o : Output) : (s.emit o).events = s.events := rfl
@[simp] theorem State.emit_receiver (s : State) (o : Output) : (s.emit o).receiver = s.receiver := rfl
@[simp] theorem State.emit_trace (s : State) (o : Output) : (s.emit o).trace = o :: s.trace := rfl
@[simp] theorem State.emit_freeCount (s : State) (o : Output) : (s.emit o).freeCount = s.freeCount := rfl

/-! ### answer -/

@[simp] theorem State.answer_pending (s : State) (q : Requester) (a : Answer) :
    (s.answer q a).pending = s.pending := rfl
@[simp] theorem State.answer_now (s : State) (q : Requester) (a : Answer) : (s.answer q a).now = s.now := rfl
@[simp] theorem State.answer_partState (s : State) (q : Requester) (a : Answer) :
    (s.answer q a).partState = s.partState := rfl
@[simp] theorem State.answer_ready (s : State) (q : Requester) (a : Answer) : (s.answer q a).ready = s.ready := rfl
@[simp] theorem State.answer_loader (s : State) (q : Requester) (a : Answer) : (s.answer q a).loader = s.loader := rfl
@[simp] theorem State.answer_outcome (s : State) (q : Requester) (a : Answer) :
    (s.answer q a).outcome = s.outcome := rfl
@[simp] theorem State.answer_session (s : State) (q : Requester) (a : Answer) :
    (s.answer q a).session = s.session := rfl
@[simp] theorem State.answer_flash (s : State) (q : Requester) (a : Answer) : (s.answer q a).flash = s.flash := rfl
@[simp] theorem State.answer_apertures (s : State) (q : Requester) (a : Answer) :
    (s.answer q a).apertures = s.apertures := rfl
@[simp] theorem State.answer_staging (s : State) (q : Requester) (a : Answer) :
    (s.answer q a).staging = s.staging := rfl
@[simp] theorem State.answer_port (s : State) (q : Requester) (a : Answer) : (s.answer q a).port = s.port := rfl
@[simp] theorem State.answer_intake (s : State) (q : Requester) (a : Answer) : (s.answer q a).intake = s.intake := rfl
@[simp] theorem State.answer_acceptCount (s : State) (q : Requester) (a : Answer) :
    (s.answer q a).acceptCount = s.acceptCount := rfl
@[simp] theorem State.answer_scatter (s : State) (q : Requester) (a : Answer) :
    (s.answer q a).scatter = s.scatter := rfl
@[simp] theorem State.answer_slots (s : State) (q : Requester) (a : Answer) : (s.answer q a).slots = s.slots := rfl
@[simp] theorem State.answer_openOrder (s : State) (q : Requester) (a : Answer) :
    (s.answer q a).openOrder = s.openOrder := rfl
@[simp] theorem State.answer_flushOrder (s : State) (q : Requester) (a : Answer) :
    (s.answer q a).flushOrder = s.flushOrder := rfl
@[simp] theorem State.answer_fence (s : State) (q : Requester) (a : Answer) : (s.answer q a).fence = s.fence := rfl
@[simp] theorem State.answer_places (s : State) (q : Requester) (a : Answer) : (s.answer q a).places = s.places := rfl
@[simp] theorem State.answer_queuedOrder (s : State) (q : Requester) (a : Answer) :
    (s.answer q a).queuedOrder = s.queuedOrder := rfl
@[simp] theorem State.answer_gather (s : State) (q : Requester) (a : Answer) : (s.answer q a).gather = s.gather := rfl
@[simp] theorem State.answer_forward (s : State) (q : Requester) (a : Answer) :
    (s.answer q a).forward = s.forward := rfl
@[simp] theorem State.answer_posted (s : State) (q : Requester) (a : Answer) : (s.answer q a).posted = s.posted := rfl
@[simp] theorem State.answer_tags (s : State) (q : Requester) (a : Answer) : (s.answer q a).tags = s.tags := rfl
@[simp] theorem State.answer_holder (s : State) (q : Requester) (a : Answer) : (s.answer q a).holder = s.holder := rfl
@[simp] theorem State.answer_used (s : State) (q : Requester) (a : Answer) : (s.answer q a).used = s.used := rfl
@[simp] theorem State.answer_timing (s : State) (q : Requester) (a : Answer) : (s.answer q a).timing = s.timing := rfl
@[simp] theorem State.answer_events (s : State) (q : Requester) (a : Answer) : (s.answer q a).events = s.events := rfl
@[simp] theorem State.answer_receiver (s : State) (q : Requester) (a : Answer) :
    (s.answer q a).receiver = s.receiver := rfl
@[simp] theorem State.answer_trace (s : State) (q : Requester) (a : Answer) :
    (s.answer q a).trace = .answer q a :: s.trace := rfl
@[simp] theorem State.answer_freeCount (s : State) (q : Requester) (a : Answer) :
    (s.answer q a).freeCount = s.freeCount := rfl

/-! ### raise -/

@[simp] theorem State.raise_pending (s : State) (k : EventKind) (i : Option ApertureIdx) (a : Addr) (q : Option Requester) :
    (s.raise k i a q).pending = s.pending := rfl
@[simp] theorem State.raise_now (s : State) (k : EventKind) (i : Option ApertureIdx) (a : Addr) (q : Option Requester) :
    (s.raise k i a q).now = s.now := rfl
@[simp] theorem State.raise_partState (s : State) (k : EventKind) (i : Option ApertureIdx) (a : Addr) (q : Option Requester) :
    (s.raise k i a q).partState = s.partState := rfl
@[simp] theorem State.raise_ready (s : State) (k : EventKind) (i : Option ApertureIdx) (a : Addr) (q : Option Requester) :
    (s.raise k i a q).ready = s.ready := rfl
@[simp] theorem State.raise_loader (s : State) (k : EventKind) (i : Option ApertureIdx) (a : Addr) (q : Option Requester) :
    (s.raise k i a q).loader = s.loader := rfl
@[simp] theorem State.raise_outcome (s : State) (k : EventKind) (i : Option ApertureIdx) (a : Addr) (q : Option Requester) :
    (s.raise k i a q).outcome = s.outcome := rfl
@[simp] theorem State.raise_session (s : State) (k : EventKind) (i : Option ApertureIdx) (a : Addr) (q : Option Requester) :
    (s.raise k i a q).session = s.session := rfl
@[simp] theorem State.raise_flash (s : State) (k : EventKind) (i : Option ApertureIdx) (a : Addr) (q : Option Requester) :
    (s.raise k i a q).flash = s.flash := rfl
@[simp] theorem State.raise_apertures (s : State) (k : EventKind) (i : Option ApertureIdx) (a : Addr) (q : Option Requester) :
    (s.raise k i a q).apertures = s.apertures := rfl
@[simp] theorem State.raise_staging (s : State) (k : EventKind) (i : Option ApertureIdx) (a : Addr) (q : Option Requester) :
    (s.raise k i a q).staging = s.staging := rfl
@[simp] theorem State.raise_port (s : State) (k : EventKind) (i : Option ApertureIdx) (a : Addr) (q : Option Requester) :
    (s.raise k i a q).port = s.port := rfl
@[simp] theorem State.raise_intake (s : State) (k : EventKind) (i : Option ApertureIdx) (a : Addr) (q : Option Requester) :
    (s.raise k i a q).intake = s.intake := rfl
@[simp] theorem State.raise_acceptCount (s : State) (k : EventKind) (i : Option ApertureIdx) (a : Addr) (q : Option Requester) :
    (s.raise k i a q).acceptCount = s.acceptCount := rfl
@[simp] theorem State.raise_scatter (s : State) (k : EventKind) (i : Option ApertureIdx) (a : Addr) (q : Option Requester) :
    (s.raise k i a q).scatter = s.scatter := rfl
@[simp] theorem State.raise_slots (s : State) (k : EventKind) (i : Option ApertureIdx) (a : Addr) (q : Option Requester) :
    (s.raise k i a q).slots = s.slots := rfl
@[simp] theorem State.raise_openOrder (s : State) (k : EventKind) (i : Option ApertureIdx) (a : Addr) (q : Option Requester) :
    (s.raise k i a q).openOrder = s.openOrder := rfl
@[simp] theorem State.raise_flushOrder (s : State) (k : EventKind) (i : Option ApertureIdx) (a : Addr) (q : Option Requester) :
    (s.raise k i a q).flushOrder = s.flushOrder := rfl
@[simp] theorem State.raise_fence (s : State) (k : EventKind) (i : Option ApertureIdx) (a : Addr) (q : Option Requester) :
    (s.raise k i a q).fence = s.fence := rfl
@[simp] theorem State.raise_places (s : State) (k : EventKind) (i : Option ApertureIdx) (a : Addr) (q : Option Requester) :
    (s.raise k i a q).places = s.places := rfl
@[simp] theorem State.raise_queuedOrder (s : State) (k : EventKind) (i : Option ApertureIdx) (a : Addr) (q : Option Requester) :
    (s.raise k i a q).queuedOrder = s.queuedOrder := rfl
@[simp] theorem State.raise_gather (s : State) (k : EventKind) (i : Option ApertureIdx) (a : Addr) (q : Option Requester) :
    (s.raise k i a q).gather = s.gather := rfl
@[simp] theorem State.raise_forward (s : State) (k : EventKind) (i : Option ApertureIdx) (a : Addr) (q : Option Requester) :
    (s.raise k i a q).forward = s.forward := rfl
@[simp] theorem State.raise_posted (s : State) (k : EventKind) (i : Option ApertureIdx) (a : Addr) (q : Option Requester) :
    (s.raise k i a q).posted = s.posted := rfl
@[simp] theorem State.raise_tags (s : State) (k : EventKind) (i : Option ApertureIdx) (a : Addr) (q : Option Requester) :
    (s.raise k i a q).tags = s.tags := rfl
@[simp] theorem State.raise_holder (s : State) (k : EventKind) (i : Option ApertureIdx) (a : Addr) (q : Option Requester) :
    (s.raise k i a q).holder = s.holder := rfl
@[simp] theorem State.raise_used (s : State) (k : EventKind) (i : Option ApertureIdx) (a : Addr) (q : Option Requester) :
    (s.raise k i a q).used = s.used := rfl
@[simp] theorem State.raise_timing (s : State) (k : EventKind) (i : Option ApertureIdx) (a : Addr) (q : Option Requester) :
    (s.raise k i a q).timing = s.timing := rfl
@[simp] theorem State.raise_events (s : State) (k : EventKind) (i : Option ApertureIdx) (a : Addr) (q : Option Requester) :
    (s.raise k i a q).events = s.events.raise k i a q := rfl
@[simp] theorem State.raise_receiver (s : State) (k : EventKind) (i : Option ApertureIdx) (a : Addr) (q : Option Requester) :
    (s.raise k i a q).receiver = s.receiver := rfl
@[simp] theorem State.raise_trace (s : State) (k : EventKind) (i : Option ApertureIdx) (a : Addr) (q : Option Requester) :
    (s.raise k i a q).trace = s.trace := rfl
@[simp] theorem State.raise_freeCount (s : State) (k : EventKind) (i : Option ApertureIdx) (a : Addr) (q : Option Requester) :
    (s.raise k i a q).freeCount = s.freeCount := rfl

/-! ### withPending -/

@[simp] theorem State.withPending_pending (s : State) (l : List Instr) : (s.withPending l).pending = l := rfl
@[simp] theorem State.withPending_now (s : State) (l : List Instr) : (s.withPending l).now = s.now := rfl
@[simp] theorem State.withPending_partState (s : State) (l : List Instr) :
    (s.withPending l).partState = s.partState := rfl
@[simp] theorem State.withPending_ready (s : State) (l : List Instr) : (s.withPending l).ready = s.ready := rfl
@[simp] theorem State.withPending_loader (s : State) (l : List Instr) : (s.withPending l).loader = s.loader := rfl
@[simp] theorem State.withPending_outcome (s : State) (l : List Instr) : (s.withPending l).outcome = s.outcome := rfl
@[simp] theorem State.withPending_session (s : State) (l : List Instr) : (s.withPending l).session = s.session := rfl
@[simp] theorem State.withPending_flash (s : State) (l : List Instr) : (s.withPending l).flash = s.flash := rfl
@[simp] theorem State.withPending_apertures (s : State) (l : List Instr) :
    (s.withPending l).apertures = s.apertures := rfl
@[simp] theorem State.withPending_staging (s : State) (l : List Instr) : (s.withPending l).staging = s.staging := rfl
@[simp] theorem State.withPending_port (s : State) (l : List Instr) : (s.withPending l).port = s.port := rfl
@[simp] theorem State.withPending_intake (s : State) (l : List Instr) : (s.withPending l).intake = s.intake := rfl
@[simp] theorem State.withPending_acceptCount (s : State) (l : List Instr) :
    (s.withPending l).acceptCount = s.acceptCount := rfl
@[simp] theorem State.withPending_scatter (s : State) (l : List Instr) : (s.withPending l).scatter = s.scatter := rfl
@[simp] theorem State.withPending_slots (s : State) (l : List Instr) : (s.withPending l).slots = s.slots := rfl
@[simp] theorem State.withPending_openOrder (s : State) (l : List Instr) :
    (s.withPending l).openOrder = s.openOrder := rfl
@[simp] theorem State.withPending_flushOrder (s : State) (l : List Instr) :
    (s.withPending l).flushOrder = s.flushOrder := rfl
@[simp] theorem State.withPending_fence (s : State) (l : List Instr) : (s.withPending l).fence = s.fence := rfl
@[simp] theorem State.withPending_places (s : State) (l : List Instr) : (s.withPending l).places = s.places := rfl
@[simp] theorem State.withPending_queuedOrder (s : State) (l : List Instr) :
    (s.withPending l).queuedOrder = s.queuedOrder := rfl
@[simp] theorem State.withPending_gather (s : State) (l : List Instr) : (s.withPending l).gather = s.gather := rfl
@[simp] theorem State.withPending_forward (s : State) (l : List Instr) : (s.withPending l).forward = s.forward := rfl
@[simp] theorem State.withPending_posted (s : State) (l : List Instr) : (s.withPending l).posted = s.posted := rfl
@[simp] theorem State.withPending_tags (s : State) (l : List Instr) : (s.withPending l).tags = s.tags := rfl
@[simp] theorem State.withPending_holder (s : State) (l : List Instr) : (s.withPending l).holder = s.holder := rfl
@[simp] theorem State.withPending_used (s : State) (l : List Instr) : (s.withPending l).used = s.used := rfl
@[simp] theorem State.withPending_timing (s : State) (l : List Instr) : (s.withPending l).timing = s.timing := rfl
@[simp] theorem State.withPending_events (s : State) (l : List Instr) : (s.withPending l).events = s.events := rfl
@[simp] theorem State.withPending_receiver (s : State) (l : List Instr) : (s.withPending l).receiver = s.receiver := rfl
@[simp] theorem State.withPending_trace (s : State) (l : List Instr) : (s.withPending l).trace = s.trace := rfl
@[simp] theorem State.withPending_freeCount (s : State) (l : List Instr) :
    (s.withPending l).freeCount = s.freeCount := rfl

/-! ### Numbered things after an update -/

theorem State.aperture_eq (s : State) (i : ApertureIdx) : s.aperture i = s.apertures[i] := rfl

theorem State.aperture_congr (s t : State) (h : s.apertures = t.apertures) (i : ApertureIdx) : s.aperture i = t.aperture i := by
  rw [State.aperture_eq, State.aperture_eq, h]

theorem State.aperture_setAperture (s : State) (i j : ApertureIdx) (x : Aperture) :
    (s.setAperture i x).aperture j = if i = j then x else s.aperture j := by
  simp [State.aperture, State.setAperture, Vector.getElem_set, Fin.ext_iff]

@[simp] theorem State.aperture_setAperture_self (s : State) (i : ApertureIdx) (x : Aperture) : (s.setAperture i x).aperture i = x := by
  simp [State.aperture_setAperture]

theorem State.aperture_setAperture_of_ne (s : State) (i j : ApertureIdx) (x : Aperture) (h : i ≠ j) :
    (s.setAperture i x).aperture j = s.aperture j := by
  simp [State.aperture_setAperture, h]

theorem State.slot_eq (s : State) (k : SlotIdx) : s.slot k = s.slots[k] := rfl

theorem State.slot_congr (s t : State) (h : s.slots = t.slots) (k : SlotIdx) : s.slot k = t.slot k := by
  rw [State.slot_eq, State.slot_eq, h]

theorem State.slot_setSlot (s : State) (k j : SlotIdx) (x : Slot) :
    (s.setSlot k x).slot j = if k = j then x else s.slot j := by
  simp [State.slot, State.setSlot, Vector.getElem_set, Fin.ext_iff]

@[simp] theorem State.slot_setSlot_self (s : State) (k : SlotIdx) (x : Slot) : (s.setSlot k x).slot k = x := by
  simp [State.slot_setSlot]

theorem State.slot_setSlot_of_ne (s : State) (k j : SlotIdx) (x : Slot) (h : k ≠ j) :
    (s.setSlot k x).slot j = s.slot j := by
  simp [State.slot_setSlot, h]

theorem State.place_eq (s : State) (p : PlaceIdx) : s.place p = s.places[p] := rfl

theorem State.place_congr (s t : State) (h : s.places = t.places) (p : PlaceIdx) : s.place p = t.place p := by
  rw [State.place_eq, State.place_eq, h]

theorem State.place_setPlace (s : State) (p j : PlaceIdx) (x : Option Entry) :
    (s.setPlace p x).place j = if p = j then x else s.place j := by
  simp [State.place, State.setPlace, Vector.getElem_set, Fin.ext_iff]

@[simp] theorem State.place_setPlace_self (s : State) (p : PlaceIdx) (x : Option Entry) : (s.setPlace p x).place p = x := by
  simp [State.place_setPlace]

theorem State.place_setPlace_of_ne (s : State) (p j : PlaceIdx) (x : Option Entry) (h : p ≠ j) :
    (s.setPlace p x).place j = s.place j := by
  simp [State.place_setPlace, h]

theorem State.tag_eq (s : State) (t : Tag) : s.tag t = s.tags[t] := rfl

theorem State.tag_congr (s u : State) (h : s.tags = u.tags) (t : Tag) : s.tag t = u.tag t := by
  rw [State.tag_eq, State.tag_eq, h]

theorem State.tag_setTag (s : State) (t j : Tag) (x : Option TagRecord) :
    (s.setTag t x).tag j = if t = j then x else s.tag j := by
  simp [State.tag, State.setTag, Vector.getElem_set, Fin.ext_iff]

@[simp] theorem State.tag_setTag_self (s : State) (t : Tag) (x : Option TagRecord) : (s.setTag t x).tag t = x := by
  simp [State.tag_setTag]

theorem State.tag_setTag_of_ne (s : State) (t j : Tag) (x : Option TagRecord) (h : t ≠ j) :
    (s.setTag t x).tag j = s.tag j := by
  simp [State.tag_setTag, h]

@[simp] theorem State.setAperture_slot (s : State) (i : ApertureIdx) (a : Aperture) (j : SlotIdx) :
    (s.setAperture i a).slot j = s.slot j := rfl
@[simp] theorem State.setAperture_place (s : State) (i : ApertureIdx) (a : Aperture) (j : PlaceIdx) :
    (s.setAperture i a).place j = s.place j := rfl
@[simp] theorem State.setAperture_tag (s : State) (i : ApertureIdx) (a : Aperture) (j : Tag) :
    (s.setAperture i a).tag j = s.tag j := rfl
@[simp] theorem State.setSlot_aperture (s : State) (k : SlotIdx) (x : Slot) (j : ApertureIdx) :
    (s.setSlot k x).aperture j = s.aperture j := rfl
@[simp] theorem State.setSlot_place (s : State) (k : SlotIdx) (x : Slot) (j : PlaceIdx) :
    (s.setSlot k x).place j = s.place j := rfl
@[simp] theorem State.setSlot_tag (s : State) (k : SlotIdx) (x : Slot) (j : Tag) :
    (s.setSlot k x).tag j = s.tag j := rfl
@[simp] theorem State.setPlace_aperture (s : State) (p : PlaceIdx) (e : Option Entry) (j : ApertureIdx) :
    (s.setPlace p e).aperture j = s.aperture j := rfl
@[simp] theorem State.setPlace_slot (s : State) (p : PlaceIdx) (e : Option Entry) (j : SlotIdx) :
    (s.setPlace p e).slot j = s.slot j := rfl
@[simp] theorem State.setPlace_tag (s : State) (p : PlaceIdx) (e : Option Entry) (j : Tag) :
    (s.setPlace p e).tag j = s.tag j := rfl
@[simp] theorem State.setTag_aperture (s : State) (t : Tag) (r : Option TagRecord) (j : ApertureIdx) :
    (s.setTag t r).aperture j = s.aperture j := rfl
@[simp] theorem State.setTag_slot (s : State) (t : Tag) (r : Option TagRecord) (j : SlotIdx) :
    (s.setTag t r).slot j = s.slot j := rfl
@[simp] theorem State.setTag_place (s : State) (t : Tag) (r : Option TagRecord) (j : PlaceIdx) :
    (s.setTag t r).place j = s.place j := rfl
@[simp] theorem State.emit_aperture (s : State) (o : Output) (j : ApertureIdx) :
    (s.emit o).aperture j = s.aperture j := rfl
@[simp] theorem State.emit_slot (s : State) (o : Output) (j : SlotIdx) : (s.emit o).slot j = s.slot j := rfl
@[simp] theorem State.emit_place (s : State) (o : Output) (j : PlaceIdx) : (s.emit o).place j = s.place j := rfl
@[simp] theorem State.emit_tag (s : State) (o : Output) (j : Tag) : (s.emit o).tag j = s.tag j := rfl
@[simp] theorem State.answer_aperture (s : State) (q : Requester) (a : Answer) (j : ApertureIdx) :
    (s.answer q a).aperture j = s.aperture j := rfl
@[simp] theorem State.answer_slot (s : State) (q : Requester) (a : Answer) (j : SlotIdx) :
    (s.answer q a).slot j = s.slot j := rfl
@[simp] theorem State.answer_place (s : State) (q : Requester) (a : Answer) (j : PlaceIdx) :
    (s.answer q a).place j = s.place j := rfl
@[simp] theorem State.answer_tag (s : State) (q : Requester) (a : Answer) (j : Tag) :
    (s.answer q a).tag j = s.tag j := rfl
@[simp] theorem State.raise_aperture (s : State) (k : EventKind) (i : Option ApertureIdx) (a : Addr) (q : Option Requester) (j : ApertureIdx) :
    (s.raise k i a q).aperture j = s.aperture j := rfl
@[simp] theorem State.raise_slot (s : State) (k : EventKind) (i : Option ApertureIdx) (a : Addr) (q : Option Requester) (j : SlotIdx) :
    (s.raise k i a q).slot j = s.slot j := rfl
@[simp] theorem State.raise_place (s : State) (k : EventKind) (i : Option ApertureIdx) (a : Addr) (q : Option Requester) (j : PlaceIdx) :
    (s.raise k i a q).place j = s.place j := rfl
@[simp] theorem State.raise_tag (s : State) (k : EventKind) (i : Option ApertureIdx) (a : Addr) (q : Option Requester) (j : Tag) :
    (s.raise k i a q).tag j = s.tag j := rfl
@[simp] theorem State.withPending_aperture (s : State) (l : List Instr) (j : ApertureIdx) :
    (s.withPending l).aperture j = s.aperture j := rfl
@[simp] theorem State.withPending_slot (s : State) (l : List Instr) (j : SlotIdx) :
    (s.withPending l).slot j = s.slot j := rfl
@[simp] theorem State.withPending_place (s : State) (l : List Instr) (j : PlaceIdx) :
    (s.withPending l).place j = s.place j := rfl
@[simp] theorem State.withPending_tag (s : State) (l : List Instr) (j : Tag) : (s.withPending l).tag j = s.tag j := rfl

end Sys2Proof.Machine
end

