-- ==== Sys2Proof/Safety.lean ====
section
/-! DEFINITION. What a good state of the part is: the laws the spec gives for each block, as predicates on State. A run
is safe when every state of it keeps them. No step of the model faults or refuses (log 19). -/

namespace Sys2Proof.Machine

/-! ### Part control, loader and flash link -/

/-- READY is high exactly in RUN (R58); the loader is at work exactly in LOADING (R181); the flash session is open only
in RUN (R187); FL_SEL_N is low exactly while the loader reads or the session is SELECTED (R181, R187); and a link that
nobody holds rests (R180, R187). -/
structure State.PartLaw (s : State) : Prop where
  readyInRun : s.ready = true ↔ s.partState = .run
  loaderInLoading : s.loader ≠ .idle ↔ s.partState = .loading
  sessionInRun : s.session ≠ .closed → s.partState = .run
  selected : s.flash.selN = false ↔ ((∃ h, s.loader = .reading h) ∨ s.session = .selected)
  rests : s.loader = .idle → s.session = .closed → s.flash = FlashPins.rest

/-! ### Timing settings and the checked header (R154, R171, R182) -/

/-- A header that has passed the tests of R182. -/
def Header.passes (h : Header) : Prop := h.verdict = .goesOn

/-- The settings stand in their ranges (R171), the allowance used is at most 15 (R154), a boot outcome LOADED(n) has n
at most 8 (R167), and the loader goes on only with a header that passed (R182). -/
structure State.SettingsLaw (s : State) : Prop where
  age : s.timing.ageLimit ≤ 4095
  discard : 16 ≤ s.timing.discardLimit ∧ s.timing.discardLimit ≤ 65535
  allowance : 1 ≤ s.timing.allowance ∧ s.timing.allowance ≤ 15
  used : s.used ≤ 15
  loaded : ∀ n, s.outcome = .loaded n → n ≤ 8
  header : ∀ h, s.loader = .reading (some h) → h.length = 16 ∧ (headerOf h).passes
  image : ∀ im, s.loader = .checking im → 16 ≤ im.length ∧ (headerOf im).passes
  installing : ∀ h rs, s.loader = .installing h rs → h.passes ∧ rs.length ≤ 8

/-! ### The aperture table -/

/-- Two records' view windows are apart, and so are their surface extents (R10). -/
def Fields.Apart (f g : Fields) : Prop := f.viewsOverlap g = false ∧ f.surfacesOverlap g = false

/-- EMPTY records hold the EMPTY values (R1); the others are valid (R9), and only DRAINING ones hold a prior set (R17);
no two non-EMPTY ones overlap (R10); in HELD and LOADING all are EMPTY and so is the staging record (R5, R21, R22); and
the records the loader is about to install are valid, name different indexes and do not overlap (R183). -/
structure State.TableLaw (s : State) : Prop where
  emptyValues : ∀ i, (s.aperture i).state = .empty → s.aperture i = Aperture.cleared
  valid : ∀ i, (s.aperture i).state ≠ .empty → (s.aperture i).fields.valid = true
  drain : ∀ i, (s.aperture i).drain.isSome = true ↔ (s.aperture i).state = .draining
  apart : ∀ i j, i ≠ j → (s.aperture i).state ≠ .empty → (s.aperture j).state ≠ .empty →
    (s.aperture i).fields.Apart (s.aperture j).fields
  emptyBeforeRun : s.partState = .held ∨ s.partState = .loading →
    s.staging = none ∧ ∀ i, (s.aperture i).state = .empty
  loaderInLoading : s.loader ≠ .idle → s.partState = .loading
  records : ∀ h rs, s.loader = .installing h rs →
    (∀ r ∈ rs, r.fields.valid = true) ∧
      rs.Pairwise (fun a b => a.index ≠ b.index ∧ a.fields.Apart b.fields)

/-! ### The intake (R61, R67) -/

/-- The intake holds at most 8 records in acceptance order, each with an enabled byte; the oldest is SCATTERING and the
others WAITING (R61); and the scatter engine is IDLE, without a cursor, exactly when the intake is empty (R67). -/
structure State.IntakeLaw (s : State) : Prop where
  capacity : s.intake.length ≤ 8
  order : (s.intake.map (·.position)).Pairwise (· < ·)
  positions : ∀ r ∈ s.intake, 1 ≤ r.position ∧ r.position ≤ s.acceptCount
  enabled : ∀ r ∈ s.intake, ∃ b ∈ r.data, b.enabled = true
  oldest : ∀ r, s.intake.head? = some r → r.state = .scattering
  waiting : ∀ r ∈ s.intake.tail, r.state = .waiting
  engine : s.scatter.state = .idle ↔ s.intake = []
  cursor : s.scatter.cursor.isSome = true ↔ s.intake ≠ []

/-! ### The combine store (R79 to R82, R90) -/

/-- MERGING or WRITING (R80). -/
def SlotState.flushing (st : SlotState) : Prop := st = .merging ∨ st = .writing

/-- OPEN or MERGING, the states under the same-line law (R82). -/
def SlotState.holdsLine (st : SlotState) : Prop := st = .opened ∨ st = .merging

/-- The kind of a slot's request: a merge read in MERGING, otherwise a line write (R89, R90). -/
def SlotState.requestKind (st : SlotState) : LineKind := if st = .merging then .read else .write

/-- The open-order list holds the OPEN slots, each once (R81), and the flush-order list the flushing ones, each once
(R90); FREE slots hold the FREE values (R79); OPEN slots have no reason, mask or request (R79); flushing slots have a
request (R80); no line is held by two slots that are OPEN or MERGING (R82); touched-slot lists name OPEN slots, each
once (R71); and the outstanding requests of slots are the COMBINE tags (R149). -/
structure State.SlotLaw (s : State) : Prop where
  openOnce : s.openOrder.Nodup
  openList : ∀ k, k ∈ s.openOrder ↔ (s.slot k).state = .opened
  flushOnce : s.flushOrder.Nodup
  flushList : ∀ k, k ∈ s.flushOrder ↔ (s.slot k).state.flushing
  freeValues : ∀ k, (s.slot k).state = .free → s.slot k = Slot.cleared
  openValues : ∀ k, (s.slot k).state = .opened →
    (s.slot k).reason = .none ∧ (s.slot k).mask = 0#64 ∧ (s.slot k).request = .none
  flushRequest : ∀ k, (s.slot k).state.flushing → (s.slot k).request ≠ .none
  oneHolder : ∀ j k, j ≠ k → (s.slot j).state.holdsLine → (s.slot k).state.holdsLine →
    (s.slot j).line ≠ (s.slot k).line
  touched : ∀ r ∈ s.intake, r.touched.Nodup ∧ ∀ k ∈ r.touched, (s.slot k).state = .opened
  slotTag : ∀ k t, (s.slot k).request = .outstanding t →
    s.tag t = some ⟨.combine, (s.slot k).state.requestKind, (s.slot k).line, .slot k⟩
  tagSlot : ∀ t r k, s.tag t = some r → r.owner = .slot k →
    (s.slot k).request = .outstanding t ∧ r.kind = (s.slot k).state.requestKind

/-! ### The fence (R95) -/

/-- In PENDING the fence has a prior set; otherwise it has none, the fault indication is clear (R95), and no slot is
fence-marked (R94, R101). -/
structure State.FenceLaw (s : State) : Prop where
  prior : s.fence.prior.isSome = true ↔ s.fence.state = .pending
  fault : s.fence.state ≠ .pending → s.fence.fault = false
  marks : s.fence.state ≠ .pending → ∀ k, (s.slot k).mark = false

/-! ### The deferred read table and the gather engine (R106 to R117) -/

/-- The entry in place `p` and its state. -/
def State.entryIn (s : State) (p : PlaceIdx) (st : EntryState) : Prop :=
  ∃ e, s.place p = some e ∧ e.state = st

/-- The gather engine serves the GATHERING entry in place `p` (R117). -/
def Gather.gathers (g : Gather) (p : PlaceIdx) : Prop :=
  g = .priorWait p ∨ (∃ sn, g = .slotWait p sn) ∨ ∃ job, g = .reading p job

/-- The line reads the gather engine has outstanding (R117). -/
def Gather.outstanding : Gather → List Tag
  | .reading _ job => job.outstanding
  | .cancelWait _ job => job.outstanding
  | .immediate job _ => job.outstanding
  | .idle => []
  | .priorWait _ => []
  | .slotWait _ _ => []

/-- The port holds an immediate read (R40, R115). -/
def State.holdsImmediate (s : State) : Prop := ∃ h i, s.port = .holding h ∧ h.service = .immediate i

/-- No two entries that are not CANCELLED have the same key (R108); the queued order holds the QUEUED entries, each once
(R109); the GATHERING and the CANCELLED entry are the one the engine serves (R107, R117); exactly the READY and FAILED
entries have an expiry time (R106); an immediate read is held by the port (R115) and served now or after CANCEL_WAIT;
the outstanding reads, at most four, are the GATHER tags (R117, R149); and an IDLE engine leaves no entry QUEUED
(R118). -/
structure State.DeferredLaw (s : State) : Prop where
  keys : ∀ p q e d, s.place p = some e → s.place q = some d → e.state ≠ .cancelled → d.state ≠ .cancelled →
    e.requester = d.requester → e.address = d.address → e.beats = d.beats → p = q
  queuedOnce : s.queuedOrder.Nodup
  queuedList : ∀ p, p ∈ s.queuedOrder ↔ s.entryIn p .queued
  gathering : ∀ p, s.entryIn p .gathering ↔ s.gather.gathers p
  cancelled : ∀ p, s.entryIn p .cancelled ↔ ∃ job, s.gather = .cancelWait p job
  expiry : ∀ p e, s.place p = some e → (e.expiry.isSome = true ↔ e.state = .ready ∨ e.state = .failed)
  immediate : (∃ job buffer, s.gather = .immediate job buffer) → s.holdsImmediate
  held : s.holdsImmediate → (∃ job buffer, s.gather = .immediate job buffer) ∨ ∃ p job, s.gather = .cancelWait p job
  readsOnce : s.gather.outstanding.Nodup
  atMostFour : s.gather.outstanding.length ≤ 4
  placeTag : ∀ t r p, s.tag t = some r → r.owner = .place p →
    t ∈ s.gather.outstanding ∧ ((∃ job, s.gather = .reading p job) ∨ ∃ job, s.gather = .cancelWait p job)
  immediateTag : ∀ t r, s.tag t = some r → r.owner = .immediateRead →
    t ∈ s.gather.outstanding ∧ ∃ job buffer, s.gather = .immediate job buffer
  readTag : ∀ t ∈ s.gather.outstanding, ∃ r, s.tag t = some r ∧ (r.owner = .immediateRead ∨ ∃ p, r.owner = .place p)
  waits : ∀ p job, s.gather = .cancelWait p job → job.outstanding ≠ []
  idleTakes : s.gather = .idle → s.queuedOrder = []

/-! ### The forward queue (R132, R133, R40) -/

/-- The forward queue holds at most 6 entries (R132); every entry behind the head is BEHIND, the head is not (R133);
only the newest can be a READ, and there is one exactly while the port holds a pass-through read (R40, R132); and the
tags of the read head are lines of a READ head granted under them (R149). -/
structure State.ForwardLaw (s : State) : Prop where
  capacity : s.forward.length ≤ 6
  behind : ∀ e ∈ s.forward.tail, e.state = .behind
  head : ∀ e, s.forward.head? = some e → e.state ≠ .behind
  writesAhead : ∀ e ∈ s.forward.dropLast, e.kind = .write
  heldRead : (∃ e ∈ s.forward, e.kind = .read) ↔ ∃ h, s.port = .holding h ∧ h.service = .passThrough
  readTag : ∀ t r, s.tag t = some r → r.owner = .readHead →
    ∃ e, s.forward.head? = some e ∧ e.kind = .read ∧ ∃ l ∈ e.lines, l.mark = .granted t

/-! ### All of them -/

/-- A state that keeps every law. -/
structure State.Safe (s : State) : Prop where
  part : s.PartLaw
  settings : s.SettingsLaw
  table : s.TableLaw
  intake : s.IntakeLaw
  slots : s.SlotLaw
  fence : s.FenceLaw
  deferred : s.DeferredLaw
  forward : s.ForwardLaw

/-! ### Words the statements use -/

/-- A frame's check byte arrives and matches: the receiver is RECEIVING and the check byte is the computed CRC-8
(R160, R161). -/
def State.FrameArrives (s : State) (code : Byte) (f : Frame) : Prop :=
  s.receiver.phase = .receiving ∧ f.check = frameCheck code f.args

/-- The same state with the receiver RESPONDING with a result (R160, R162). -/
def State.responding (s : State) (code : Byte) (f : Frame) (r : Result) : State :=
  { s with receiver := { s.receiver with phase := .responding r.response, kept := keptOf code f } }

/-- The state in which the loader leaves the part (R185). -/
def State.loadEnds (s : State) (o : BootOutcome) (timing : Timing) (events : EventUnit) : State :=
  { s with
    timing := timing
    events := events
    outcome := o
    loader := .idle
    partState := .run
    ready := true
    flash := FlashPins.rest
    trace := if s.flash.selN then s.trace else .flashSelect true :: s.trace }

/-- The event unit after a CORRUPT load with a flash offset (R185). -/
def EventUnit.bootFault (e : EventUnit) (offset : Nat) : EventUnit :=
  { e with attention := Config.defaultAttention }.raise .bootFault none (BitVec.ofNat 32 offset) none

/-- `k` is the first of the numbers below `n` of which `bad` holds. -/
def FirstBad (n : Nat) (bad : Nat → Prop) (k : Nat) : Prop := k < n ∧ bad k ∧ ∀ j < k, ¬ bad j

/-- The byte addresses of a request (R38). -/
def Addresses (r : Request) (b : Nat) : Prop := r.address.toNat ≤ b ∧ b < r.address.toNat + 8 * r.beats

/-- A byte address lies in the view window of aperture `i`, which is not EMPTY (R2, R45). -/
def State.InWindow (s : State) (i : ApertureIdx) (b : Nat) : Prop :=
  (s.aperture i).state ≠ .empty ∧ (s.aperture i).fields.viewBase.toNat ≤ b ∧ b < (s.aperture i).fields.viewEnd

/-- A byte address lies in the surface extent of aperture `i`, which is not EMPTY and has this surface access (R2,
R51). -/
def State.OnSurface (s : State) (access : SurfaceAccess) (i : ApertureIdx) (b : Nat) : Prop :=
  (s.aperture i).state ≠ .empty ∧ (s.aperture i).fields.surfaceAccess = access ∧
    (s.aperture i).fields.surfaceBase.toNat ≤ b ∧ b < (s.aperture i).fields.surfaceEnd

end Sys2Proof.Machine
end

