-- ==== Sys2Proof/Certificates/Slice0/Obligations.lean ====
section
/-! DEFINITION. The statements about the UO-208, for the provers. Each says in Lean what OBLIGATIONS.json says in
words. -/

open Sys2Proof Sys2Proof.Machine

/-! ### Steps, idling, reset -/

/-- A step of a state with a command at the front of its queue is the command's meaning on the state with the queue's
rest. -/
def Obligations.StepTakesFrontCommand : Prop :=
  ∀ (c : Instr) (rest : List Instr) (s : State), step (s.withPending (c :: rest)) = exec c (s.withPending rest)

/-- On an empty queue a step lets one microsecond pass (the model's choice, log 1); while no deadline, no expiry time and
no drain condition is reached, nothing else changes. -/
def Obligations.IdleStepPassesOneMicrosecond : Prop :=
  ∀ s : State, s.pending = [] →
    (∀ k ∈ s.openOrder, s.timing.ageLimit = 0 ∨ s.now + 1 < (s.slot k).openTime + s.timing.ageLimit) →
    (∀ p e x, s.place p = some e → e.expiry = some x → s.now + 1 < x) →
    (∀ i, s.drained i = false) →
    step s = .next { s with now := s.now + 1 }

/-- Every command answers a next state in every state: none faults, none is refused (the model's reading, log 19). -/
def Obligations.EveryCommandAnswersNext : Prop :=
  ∀ (c : Instr) (s : State), ∃ t, exec c s = .next t

/-- State.reset holds the values the spec gives every block while RESET_N is asserted. -/
def Obligations.ResetStateHoldsPowerOnValues : Prop :=
  State.reset.partState = .held ∧ State.reset.ready = false ∧ State.reset.loader = .idle ∧
  State.reset.outcome = .none ∧ State.reset.session = .closed ∧ State.reset.flash = ⟨true, false, false⟩ ∧
  (∀ i, State.reset.aperture i = ⟨.empty, ⟨0, 0, 0, 0, 0, 0, .r0, false, .readWrite, .ordered, .strict⟩, none⟩) ∧
  State.reset.staging = none ∧ State.reset.port = .idle ∧ State.reset.intake = [] ∧ State.reset.acceptCount = 0 ∧
  State.reset.scatter = ⟨.idle, none⟩ ∧
  (∀ k, (State.reset.slot k).state = .free ∧ (State.reset.slot k).coverage = 0 ∧ (State.reset.slot k).data = 0 ∧
    (State.reset.slot k).mark = false ∧ (State.reset.slot k).reason = .none ∧ (State.reset.slot k).mask = 0 ∧
    (State.reset.slot k).request = .none) ∧
  State.reset.openOrder = [] ∧ State.reset.flushOrder = [] ∧ State.reset.fence = ⟨.idle, none, false⟩ ∧
  (∀ p, State.reset.place p = none) ∧ State.reset.queuedOrder = [] ∧ State.reset.gather = .idle ∧
  State.reset.forward = [] ∧ State.reset.posted = [] ∧ (∀ t, State.reset.tag t = none) ∧
  State.reset.holder = .forward ∧ State.reset.used = 0 ∧ State.reset.timing = ⟨64, 2048, 4⟩ ∧
  State.reset.events.flags = 0 ∧ (∀ k : Fin 8, State.reset.events.counts[k] = 0) ∧
  State.reset.events.lastFault = none ∧ State.reset.events.attention = 0xDF#8 ∧ State.reset.receiver.phase = .idle ∧
  State.reset.attn = false ∧ State.reset.mgDo = .high

/-- State.reset keeps every law. -/
def Obligations.ResetStateKeepsEveryLaw : Prop := State.reset.Safe

/-! ### Laws that every step keeps -/

/-- READY, loader, flash session and FL_SEL_N follow the part state in every step (R58, R181, R187). -/
def Obligations.PartLawKeptByEveryStep : Prop :=
  ∀ s t : State, s.PartLaw → step s = .next t → t.PartLaw

/-- The timing settings, the allowance used and the header in hand stay in their ranges (R154, R171, R182). -/
def Obligations.SettingsLawKeptByEveryStep : Prop :=
  ∀ s t : State, s.SettingsLaw → step s = .next t → t.SettingsLaw

/-- The aperture table keeps its law, the overlap law of R10 included. -/
def Obligations.TableLawKeptByEveryStep : Prop :=
  ∀ s t : State, s.TableLaw → step s = .next t → t.TableLaw

/-- The intake keeps its order, capacity and states (R61, R67). -/
def Obligations.IntakeLawKeptByEveryStep : Prop :=
  ∀ s t : State, s.IntakeLaw → step s = .next t → t.IntakeLaw

/-- The combine store keeps its lists, its FREE values, the same-line law and its tags (R79 to R82, R90, R149). -/
def Obligations.SlotLawKeptByEveryStep : Prop :=
  ∀ s t : State, s.SlotLaw → step s = .next t → t.SlotLaw

/-- Prior set, fault indication and marks belong to a PENDING fence alone (R95, R101). -/
def Obligations.FenceLawKeptByEveryStep : Prop :=
  ∀ s t : State, s.FenceLaw → step s = .next t → t.FenceLaw

/-- The deferred read table and the gather engine keep their law (R106 to R109, R117, R118). -/
def Obligations.DeferredLawKeptByEveryStep : Prop :=
  ∀ s t : State, s.DeferredLaw → s.ForwardLaw → step s = .next t → t.DeferredLaw

/-- The forward queue keeps its capacity, its states and its one held read (R40, R132, R133). -/
def Obligations.ForwardLawKeptByEveryStep : Prop :=
  ∀ s t : State, s.ForwardLaw → step s = .next t → t.ForwardLaw

/-! ### Reset and loading -/

/-- RESET_N_ASSERTED puts every block at its power-on value from any state, FL_SEL_N rising if it was low; RESET_N_RELEASED
takes the part from HELD to LOADING: FL_SEL_N falls and 03h, 00h, 00h, 00h are shifted out. The level of FL_CLK is
free (log 7). -/
def Obligations.ResetLineTakesAndReleasesThePart : Prop :=
  (∀ s : State, exec .resetNAsserted s = .next
     { State.reset with
       pending := s.pending
       now := s.now
       trace := if s.flash.selN then s.trace else .flashSelect true :: s.trace
       freeCount := s.freeCount
       receiver := ⟨.idle, [], s.receiver.selHigh⟩ }) ∧
  (∀ s : State, s.partState = .held → s.flash = FlashPins.rest →
     ∃ clk n, exec .resetNReleased s = .next
       { s with
         partState := .loading
         loader := .reading none
         flash := ⟨false, clk, false⟩
         trace := .flashShift [0x03#8, 0x00#8, 0x00#8, 0x00#8] :: .flashSelect false :: s.trace
         freeCount := n })

/-- HEADER_RECEIVED tests the header in the order of R182; a failing test ends the load at the offset of its field, and a
header that passes is kept. IMAGE_READ_END with the 24n record bytes and 4 CRC bytes enters CHECKING with the whole
image, and FL_SEL_N is high. That FL_CLK keeps its level in these events, and FL_DO in
IMAGE_READ_END, is the model's choice (log 27). -/
def Obligations.ImageReadFollowsTheHeader : Prop :=
  (∀ (s : State) (h : List Byte), s.loader = .reading none → h.length = 16 →
     let hd := headerOf h
     let ends := fun t : State => exec (.headerReceived h) s = .next t
     let corrupt := fun offset => ends (s.loadEnds .corrupt ⟨64, 2048, 4⟩ (s.events.bootFault offset))
     (hd.magic = 0xFFFFFFFF#32 → ends (s.loadEnds .blank ⟨64, 2048, 4⟩ { s.events with attention := 0xDF#8 })) ∧
     (hd.magic ≠ 0xFFFFFFFF#32 → hd.magic ≠ 0x554C564E#32 → corrupt 0) ∧
     (hd.magic = 0x554C564E#32 →
       (hd.version ≠ 1#8 → corrupt 4) ∧
       (hd.version = 1#8 → 8 < hd.recordCount.toNat → corrupt 5) ∧
       (hd.version = 1#8 → hd.recordCount.toNat ≤ 8 →
         (4095 < hd.ageLimit.toNat → corrupt 6) ∧
         (hd.ageLimit.toNat ≤ 4095 → hd.discardLimit.toNat < 16 → corrupt 8) ∧
         (hd.ageLimit.toNat ≤ 4095 → 16 ≤ hd.discardLimit.toNat →
           (hd.allowance = 0#8 ∨ 15 < hd.allowance.toNat → corrupt 10) ∧
           (hd.allowance ≠ 0#8 → hd.allowance.toNat ≤ 15 → ends { s with loader := .reading (some h) }))))) ∧
  (∀ (s : State) (h rest : List Byte), s.loader = .reading (some h) →
     rest.length = 24 * (headerOf h).recordCount.toNat + 4 →
     exec (.imageReadEnd rest) s = .next
       { s with
         loader := .checking (h ++ rest)
         flash := { s.flash with selN := true }
         trace := if s.flash.selN then s.trace else .flashSelect true :: s.trace })

/-- CHECKS_END applies the four checks of R183 in their order: the first item found wrong gives the offset of a CORRUPT
load, and an image without one is handed to INSTALLING. That FL_CLK and FL_DO keep their levels there is the model's
choice (log 27). -/
def Obligations.ChecksDecideTheLoad : Prop :=
  ∀ (s : State) (im : List Byte), s.loader = .checking im →
    let n := (headerOf im).recordCount.toNat
    let good := crc32 (im.take (16 + 24 * n)) = BitVec.ofNat 32 (numberOf (slice im (16 + 24 * n) 4))
    let corrupt := fun offset =>
      exec .checksEnd s = .next (s.loadEnds .corrupt ⟨64, 2048, 4⟩ (s.events.bootFault offset))
    (¬ good → corrupt (16 + 24 * n)) ∧
    (good → ∀ k, FirstBad n (fun j => bootRecordOf (recordBytes im j) = none) k → corrupt (16 + 24 * k)) ∧
    (good → ∀ rs : List BootRecord, rs.length = n →
      (∀ j r, rs[j]? = some r → bootRecordOf (recordBytes im j) = some r) →
      let twice := fun k => ∃ j a b, j < k ∧ rs[j]? = some a ∧ rs[k]? = some b ∧ a.index = b.index
      let overlaps := fun k => ∃ j a b, j < k ∧ rs[j]? = some a ∧ rs[k]? = some b ∧ ¬ a.fields.Apart b.fields
      (∀ k, FirstBad n twice k → corrupt (16 + 24 * k)) ∧
      ((∀ k, ¬ twice k) → ∀ k, FirstBad n overlaps k → corrupt (16 + 24 * k)) ∧
      ((∀ k, ¬ twice k) → (∀ k, ¬ overlaps k) →
        exec .checksEnd s = .next { s with loader := .installing (headerOf im) rs }))

/-- INSTALL_EVENT installs every checked record as ACTIVE in one event, leaves the other indexes as they are, and ends
the load with LOADED(n), the header's settings and the header's mask. -/
def Obligations.InstallEventInstallsTheRecords : Prop :=
  ∀ (s : State) (hd : Header) (rs : List BootRecord), s.loader = .installing hd rs →
    rs.Pairwise (fun a b => a.index ≠ b.index) →
    ∃ table : Vector Aperture 8,
      (∀ r ∈ rs, table[r.index] = ⟨.active, r.fields, none⟩) ∧
      (∀ i : ApertureIdx, (∀ r ∈ rs, r.index ≠ i) → table[i] = s.aperture i) ∧
      exec .installEvent s = .next
        { s.loadEnds (.loaded rs.length) ⟨hd.ageLimit.toNat, hd.discardLimit.toNat, hd.allowance.toNat⟩
            { s.events with attention := hd.attention } with
          apertures := table }

/-! ### The system port -/

/-- Decode takes the first of steps 3, 4 and 5 that applies to a well-formed request in RUN (R42). -/
def Obligations.DecodeFollowsItsSteps : Prop :=
  ∀ (s : State) (r : Request), s.partState = .run → malformed r = false →
    ((∃ i, ∀ b, Addresses r b → s.InWindow i b) →
      ∃ i, s.decode r = .inAperture i ∧ ∀ b, Addresses r b → s.InWindow i b) ∧
    ((¬ ∃ i, ∀ b, Addresses r b → s.InWindow i b) → (∃ i b, Addresses r b ∧ s.InWindow i b) →
      ∃ i, s.decode r = .crossing i ∧ ∃ b, Addresses r b ∧ s.InWindow i b) ∧
    ((¬ ∃ i b, Addresses r b ∧ s.InWindow i b) → s.decode r = .passThrough)

/-- ERROR answers SHAPE, ACCESS, CROSSING and DENIED raise DECODE_ERROR, naming the aperture but for SHAPE, and change
nothing else; a request that is not malformed addresses 8 to 128 bytes of one 4 KiB block (R44, R47, R50, R51, R55). -/
def Obligations.RefusedRequestsRaiseDecodeError : Prop :=
  (∀ (s : State) (r : Request), s.port = .idle → s.partState = .run →
     let bad := r.beats < 1 ∨ 16 < r.beats ∨ r.address.toNat % 8 ≠ 0 ∨
       0x1000 < r.address.toNat % 0x1000 + 8 * r.beats
     (bad → exec (.request r) s = .next
       ((s.raise .decodeError none r.address (some r.requester)).answer r.requester (.error .shape))) ∧
     (¬ bad → 8 ≤ 8 * r.beats ∧ 8 * r.beats ≤ 128 ∧
       ∀ b, Addresses r b → b / 0x1000 = r.address.toNat / 0x1000 ∧ b ≤ 0xFFFFFFFF)) ∧
  (∀ (s : State) (r : Request) (i : ApertureIdx), s.port = .idle →
     let refused := fun d => exec (.request r) s = .next
       ((s.raise .decodeError (some i) r.address (some r.requester)).answer r.requester (.error d))
     (s.decode r = .inAperture i → (s.aperture i).state = .active →
       ((s.aperture i).fields.access = .readOnly ∧ r.kind = .write) ∨
         ((s.aperture i).fields.access = .writeOnly ∧ r.kind = .read) → refused .access) ∧
     (s.decode r = .crossing i → refused .crossing) ∧
     (s.decode r = .passThrough → (∃ b, Addresses r b ∧ s.OnSurface .denied i b) →
       (∀ j < i, ¬ ∃ b, Addresses r b ∧ s.OnSurface .denied j b) → refused .denied))

/-- Requests that are answered RETRY and change nothing: outside RUN; in a DRAINING window; writes, and reads that claim
no READY or FAILED entry, in a SUSPENDED window; aperture writes while the intake holds 8 records; and pass-through
requests while the forward queue holds 6 entries (R43, R46, R48, R53). A WRITE whose enables are all off is answered
ACCEPTED where it would be handed over, whether or not there is room, and is handed to no block (R54). -/
def Obligations.RequestsThatChangeNothing : Prop :=
  (∀ (s : State) (r : Request) (i : ApertureIdx), s.port = .idle →
     let retried := exec (.request r) s = .next (s.answer r.requester .retry)
     let written := ∃ b ∈ r.data, b.enabled = true
     (s.partState ≠ .run → retried) ∧
     (s.decode r = .inAperture i →
       ((s.aperture i).state = .draining → retried) ∧
       ((s.aperture i).state = .suspended → r.kind = .write → retried) ∧
       ((s.aperture i).state = .suspended → r.kind = .read →
         (∀ p e, s.place p = some e → e.requester = r.requester → e.address = r.address → e.beats = r.beats →
           e.state ≠ .ready ∧ e.state ≠ .failed) → retried) ∧
       ((s.aperture i).state = .active → (s.aperture i).fields.access ≠ .readOnly → r.kind = .write → written →
         8 ≤ s.intake.length → retried)) ∧
     (s.decode r = .passThrough → (∀ j b, Addresses r b → ¬ s.OnSurface .denied j b) →
       r.kind = .read ∨ written → 6 ≤ s.forward.length → retried)) ∧
  (∀ (s : State) (r : Request) (i : ApertureIdx), s.port = .idle → r.kind = .write →
     (∀ b ∈ r.data, b.enabled = false) →
     (s.decode r = .inAperture i → (s.aperture i).state = .active → (s.aperture i).fields.access ≠ .readOnly →
       exec (.request r) s = .next (s.answer r.requester .accepted)) ∧
     (s.decode r = .passThrough → (∀ j b, Addresses r b → ¬ s.OnSurface .denied j b) →
       exec (.request r) s = .next (s.answer r.requester .accepted)))

/-- An aperture write with room in the intake becomes its newest record, is answered ACCEPTED, starts an idle scatter
engine at its first enabled byte, and marks stale the overlapping QUEUED, GATHERING and READY entries of a STRICT
aperture; nothing else changes (R48, R62, R73). -/
def Obligations.ApertureWriteJoinsTheIntake : Prop :=
  ∀ (s : State) (r : Request) (i : ApertureIdx) (j : Nat) (b : WriteByte),
    s.port = .idle → s.decode r = .inAperture i → (s.aperture i).state = .active →
    (s.aperture i).fields.access ≠ .readOnly → r.kind = .write → s.intake.length < 8 →
    r.data[j]? = some b → b.enabled = true → (∀ m < j, ∀ d, r.data[m]? = some d → d.enabled = false) →
    let marks := fun e : Entry => decide ((s.aperture i).fields.readOrdering = .strict ∧ e.aperture = i ∧
      (e.state = .queued ∨ e.state = .gathering ∨ e.state = .ready) ∧
      max e.address.toNat r.address.toNat < min (e.address.toNat + 8 * e.beats) (r.address.toNat + 8 * r.beats))
    exec (.request r) s = .next
      ({ s with
        intake := s.intake ++ [IntakeRecord.mk (s.acceptCount + 1) i r.address r.beats r.data
          (if s.intake = [] then .scattering else .waiting) []]
        acceptCount := s.acceptCount + 1
        scatter := if s.intake = [] then ⟨.placing, some ⟨j, 0⟩⟩ else s.scatter
        places := s.places.map (Option.map (fun e => if marks e then { e with stale := true } else e)) }.answer
          r.requester .accepted)

/-- A pass-through request with room in the forward queue becomes its newest entry, guarded with a prior set of all
intake records when it touches an ORDERED surface; a WRITE is answered ACCEPTED and a READ holds the port (R52, R53,
R40). What the head then does is settled in the same event. -/
def Obligations.PassThroughJoinsTheForwardQueue : Prop :=
  ∀ (s : State) (r : Request), s.port = .idle → s.decode r = .passThrough →
    (∀ j b, Addresses r b → ¬ s.OnSurface .denied j b) → s.forward.length < 6 →
    ∀ prior : Option PriorSet,
    ((∃ j b, Addresses r b ∧ s.OnSurface .ordered j b) → prior = some ⟨s.acceptCount, none⟩) →
    ((¬ ∃ j b, Addresses r b ∧ s.OnSurface .ordered j b) → prior = none) →
    let entry : ForwardEntry := ⟨r.kind, r.requester, r.address, r.beats, r.data, prior, lineList r, [], .behind,
      ReadBuffer.blank⟩
    (r.kind = .write → (∃ b ∈ r.data, b.enabled = true) → exec (.request r) s = .next
      (({ s with forward := s.forward ++ [entry] }.settle []).answer r.requester .accepted)) ∧
    (r.kind = .read → exec (.request r) s = .next
      ({ s with
        forward := s.forward ++ [entry]
        port := .holding ⟨r.requester, r.address, r.beats, .passThrough⟩ }.settle []))

/-- The line list of a well-formed pass-through request: its lines rise, all unissued; a READ has every line its bytes
touch, a WRITE every line that holds an enabled byte; and a line write's mask and data are the enabled bytes in that
line, 00h elsewhere (R134). -/
def Obligations.LineListsFollowTheBytes : Prop :=
  ∀ r : Request, malformed r = false → (r.kind = .write → r.data.length = 8 * r.beats) →
    ((lineList r).map (·.line.toNat)).Pairwise (· < ·) ∧
    (∀ l ∈ lineList r, l.mark = .unissued ∧ l.line.toNat % 64 = 0) ∧
    (∀ a : Addr, (∃ l ∈ lineList r, l.line = a) ↔ a.toNat % 64 = 0 ∧
      ((r.kind = .read ∧ ∃ b, Addresses r b ∧ b / 64 * 64 = a.toNat) ∨
        (r.kind = .write ∧ ∃ j d, r.data[j]? = some d ∧ d.enabled = true ∧
          (r.address.toNat + j) / 64 * 64 = a.toNat))) ∧
    (∀ (a : Addr) (j : Nat), a.toNat % 64 = 0 → j < 64 →
      ((writeMask r.address r.data a).getLsbD j = true ↔ ∃ m d, r.data[m]? = some d ∧ d.enabled = true ∧
        r.address.toNat + m = a.toNat + j) ∧
      ((writeMask r.address r.data a).getLsbD j = false → lineByte (writeLine r.address r.data a) j = 0) ∧
      (∀ m d, r.data[m]? = some d → d.enabled = true → r.address.toNat + m = a.toNat + j →
        lineByte (writeLine r.address r.data a) j = d.value))

/-! ### The deferred read table -/

/-- A claim, in an ACTIVE aperture that may be read or in a SUSPENDED one, is answered by the entry's state: QUEUED and
GATHERING give RETRY; READY and not stale gives DATA and frees the entry; FAILED gives ERROR, detail FAULT, and frees it;
READY and stale gives RETRY and re-queues it (R46, R111, R124). -/
def Obligations.ClaimsAreAnsweredByState : Prop :=
  ∀ (s : State) (r : Request) (i : ApertureIdx) (p : PlaceIdx) (e : Entry),
    s.port = .idle → s.DeferredLaw → s.decode r = .inAperture i →
    ((s.aperture i).state = .active ∧ (s.aperture i).fields.access ≠ .writeOnly) ∨ (s.aperture i).state = .suspended →
    r.kind = .read → s.place p = some e → e.requester = r.requester → e.address = r.address → e.beats = r.beats →
    (e.state = .queued ∨ e.state = .gathering → exec (.request r) s = .next (s.answer r.requester .retry)) ∧
    (e.state = .ready → e.stale = false → exec (.request r) s = .next
      ((((s.setPlace p none).drainTest e.aperture)).answer r.requester (.data (e.buffer.bytes (8 * e.beats))))) ∧
    (e.state = .failed → exec (.request r) s = .next
      (((s.setPlace p none).drainTest e.aperture).answer r.requester (.error .fault))) ∧
    (e.state = .ready → e.stale = true → exec (.request r) s = .next
      (({ s.setPlace p (some { e with
            state := .queued
            stale := false
            prior := ⟨s.acceptCount, none⟩
            expiry := none
            buffer := ReadBuffer.blank }) with
          queuedOrder := s.queuedOrder ++ [p] }.settle []).answer r.requester .retry))

/-- A read without an entry is an immediate read when the immediate conditions hold, otherwise a new QUEUED entry in the
lowest free place, otherwise refused with TABLE_FULL (R110, R112 to R115). -/
def Obligations.ReadsWithoutAnEntryAreDecided : Prop :=
  ∀ (s : State) (r : Request) (i : ApertureIdx),
    s.port = .idle → s.decode r = .inAperture i → (s.aperture i).state = .active →
    (s.aperture i).fields.access ≠ .writeOnly → r.kind = .read →
    (∀ p e, s.place p = some e → e.state ≠ .cancelled → e.requester = r.requester → e.address = r.address →
      e.beats ≠ r.beats) →
    let lines := (s.aperture i).fields.footprint r.address r.beats
    let immediate := lines.length ≤ 2 ∧ s.intake = [] ∧
      (∀ k, (s.slot k).state ≠ .free → (s.slot k).line ∉ lines) ∧
      (∀ p e, s.place p = some e → e.state ≠ .queued ∧ e.state ≠ .gathering)
    (immediate → exec (.request r) s = .next
      { s with
        port := .holding ⟨r.requester, r.address, r.beats, .immediate i⟩
        gather := if s.gather = .idle then .immediate (ReadJob.start lines) ReadBuffer.blank else s.gather }) ∧
    (¬ immediate → ∀ p, s.place p = none → (∀ q < p, s.place q ≠ none) → exec (.request r) s = .next
      (({ s.setPlace p (some ⟨r.requester, r.address, r.beats, i, .queued, false, ⟨s.acceptCount, none⟩,
            ReadBuffer.blank, none⟩) with
          queuedOrder := s.queuedOrder ++ [p] }.settle []).answer r.requester .retry)) ∧
    (¬ immediate → (∀ p, s.place p ≠ none) → exec (.request r) s = .next
      ((s.raise .tableFull none 0 none).answer r.requester .retry))

/-- The two expiries, each one passage of time (the model's choice, log 1). DISCARD_EXPIRY: the time reaches the entry's
expiry time. AGE_EXPIRY: the time reaches the slot's deadline. In either event every entry whose expiry time is reached
is freed, DISCARD is raised for each in increasing place order, so that the last-fault record names the highest place
among them (R126), every OPEN slot whose deadline is reached closes with reason AGE (R85), and every drain that this
ends is ended (R19); the rest does not change. That a jump past several times is one event, its slots closing before its
entries go, is the model's choice (log 16). -/
def Obligations.ExpiriesFreeEntriesAndCloseSlots : Prop :=
  ∀ s : State,
    let expires := fun (t : State) (q : PlaceIdx) (d : Entry) =>
      s.place q = some d ∧ ∃ y, d.expiry = some y ∧ y ≤ t.now
    let aged := fun (t : State) (j : SlotIdx) =>
      s.timing.ageLimit ≠ 0 ∧ (s.slot j).state = .opened ∧ (s.slot j).openTime + s.timing.ageLimit ≤ t.now
    let passes := fun (t : State) (x : Nat) =>
      t.now = max s.now x ∧
      (∀ q, ((∃ d, expires t q d) → t.place q = none) ∧ ((¬ ∃ d, expires t q d) → t.place q = s.place q)) ∧
      t.events = (List.finRange 4).foldl (fun ev q => match s.place q with
        | none => ev
        | some d => match d.expiry with
          | none => ev
          | some y => if y ≤ t.now then ev.raise .discard (some d.aperture) d.address (some d.requester) else ev)
        s.events ∧
      (∀ q d, expires t q d → (∀ r e, expires t r e → r = q) →
        t.events = s.events.raise .discard (some d.aperture) d.address (some d.requester)) ∧
      (∀ q d, expires t q d → (∀ r e, expires t r e → r ≤ q) →
        t.events.lastFault = some ⟨.discard, some d.aperture, d.address, some d.requester⟩) ∧
      (s.SlotLaw → ∀ j,
        (aged t j → (t.slot j).state.flushing ∧ (t.slot j).reason = .age ∧ j ∈ t.flushOrder ∧ j ∉ t.openOrder) ∧
        (¬ aged t j → t.slot j = s.slot j)) ∧
      (∀ i,
        let ended := (s.aperture i).state = .draining ∧
          (∀ ps, (s.aperture i).drain = some ps → ∀ r ∈ t.intake, ps.holds r = false) ∧
          (∀ k, (t.slot k).state ≠ .free → (t.slot k).aperture ≠ i) ∧
          (∀ p e, t.place p = some e → e.aperture ≠ i) ∧
          ∀ h, t.port = .holding h → h.service ≠ .immediate i
        (ended → t.aperture i = Aperture.cleared) ∧ (¬ ended → t.aperture i = s.aperture i)) ∧
      (s.SlotLaw → t.intake = s.intake.map (fun r =>
        { r with touched := r.touched.filter (fun k => (t.slot k).state == SlotState.opened) })) ∧
      (s.DeferredLaw → t.queuedOrder = s.queuedOrder) ∧
      t = { s with
        now := t.now, slots := t.slots, openOrder := t.openOrder, flushOrder := t.flushOrder, intake := t.intake
        places := t.places, queuedOrder := t.queuedOrder, events := t.events, apertures := t.apertures }
    (∀ p e x, s.place p = some e → e.expiry = some x → ∃ t, exec (.discardExpiry p) s = .next t ∧ passes t x) ∧
    (∀ k, (s.slot k).state = .opened → s.timing.ageLimit ≠ 0 →
      ∃ t, exec (.ageExpiry k) s = .next t ∧ passes t ((s.slot k).openTime + s.timing.ageLimit))

/-- Cancelling entries (R127): a QUEUED, READY or FAILED entry is freed; the GATHERING one is freed and the engine becomes
IDLE when no read is outstanding, and otherwise becomes CANCELLED with no further line to issue; other entries and the
event unit do not change. -/
def Obligations.CancellationFollowsTheEntryState : Prop :=
  ∀ (s : State) (which : Entry → Bool), s.DeferredLaw →
    let t := s.cancelEntries which
    t.events = s.events ∧ t.slots = s.slots ∧ t.apertures = s.apertures ∧ t.tags = s.tags ∧
    ∀ p e, s.place p = some e →
      (which e = false → t.place p = some e) ∧
      (which e = true →
        (e.state = .queued ∨ e.state = .ready ∨ e.state = .failed → t.place p = none ∧ p ∉ t.queuedOrder) ∧
        (e.state = .gathering → s.gather.outstanding = [] → t.place p = none ∧ t.gather = .idle) ∧
        (∀ job, e.state = .gathering → s.gather = .reading p job → job.outstanding ≠ [] →
          t.place p = some { e with state := .cancelled } ∧ t.gather = .cancelWait p { job with unissued := [] }) ∧
        (e.state = .cancelled → t.place p = some e))

/-! ### Scatter engine and combine store -/

/-- The scatter engine visits the enabled bytes in increasing order, and the elements of a byte, or its one half-element
at depth 16, in increasing order; the placement at a cursor has the line, the bit positions and the values of that
element's view bits (R29, R32, R68). A placement sets the placed positions in the coverage and writes their values, and
all other positions keep theirs (R83). PLACEMENT puts the element at the cursor into the OPEN slot that holds its line,
or, when no OPEN or MERGING slot holds it, into the lowest FREE slot, opened for it, and the cursor moves on (R68, R69,
R71). A placement that completes the coverage closes the slot with reason FULL in the same event, and it enters WRITING
with a mask of all 64 bytes (R84, R89). -/
def Obligations.PlacementFillsASlot : Prop :=
  (∀ (f : Fields) (data : List WriteByte), f.valid = true →
     let enabled := fun j : Nat => ∃ b, data[j]? = some b ∧ b.enabled = true
     let perByte := if f.depth.toNat ≤ 8 then 8 / f.depth.toNat else 1
     (∀ j, enabled j → (∀ m < j, ¬ enabled m) → firstCursor data = some ⟨j, 0⟩) ∧
     (∀ c : Cursor,
       (c.element + 1 < perByte → nextCursor f data c = some ⟨c.byte, c.element + 1⟩) ∧
       (perByte ≤ c.element + 1 →
         (∀ j, c.byte < j → enabled j → (∀ m < j, c.byte < m → ¬ enabled m) → nextCursor f data c = some ⟨j, 0⟩) ∧
         ((∀ j, c.byte < j → ¬ enabled j) → nextCursor f data c = none)))) ∧
  (∀ (f : Fields) (r : IntakeRecord) (c : Cursor) (d : WriteByte), f.valid = true →
     f.viewBase.toNat ≤ r.address.toNat → r.address.toNat + c.byte < f.viewEnd → r.data[c.byte]? = some d →
     let p := placementAt f r c
     let bits := min f.depth.toNat 8
     (c.element + 1) * bits ≤ 8 →
     p.bits = bits ∧ ∀ m < bits,
       let place := f.storedBit (r.address.toNat - f.viewBase.toNat + c.byte) (c.element * bits + m)
       p.line = lineOfBit place ∧ p.pos + m = posOfBit place ∧
         p.value.testBit m = d.value.getLsbD (c.element * bits + m)) ∧
  (∀ (x : Slot) (p : Placement) (q : Nat), q < 512 →
     (x.placed p).coverage.getLsbD q = (x.coverage.getLsbD q || decide (p.pos ≤ q ∧ q < p.pos + p.bits)) ∧
     (x.placed p).data.getLsbD q =
       (if p.pos ≤ q ∧ q < p.pos + p.bits then p.value.testBit (q - p.pos) else x.data.getLsbD q)) ∧
  (∀ (s : State) (r : IntakeRecord) (rest : List IntakeRecord) (c c' : Cursor) (k : SlotIdx),
     s.scatter = ⟨.placing, some c⟩ → s.intake = r :: rest →
     nextCursor (s.aperture r.aperture).fields r.data c = some c' →
     let p := placementAt (s.aperture r.aperture).fields r c
     let x : Slot := { Slot.cleared with state := .opened, line := p.line, aperture := r.aperture, openTime := s.now }
     (s.slotWith .opened p.line = some k → ((s.slot k).placed p).coverage ≠ BitVec.allOnes 512 →
       exec .placement s = .next
         { s with
           slots := s.slots.set k ((s.slot k).placed p)
           intake := r.touch k :: rest
           scatter := ⟨.placing, some c'⟩ }) ∧
     (s.slotWith .opened p.line = none → s.slotWith .merging p.line = none → (s.slot k).state = .free →
       (∀ j < k, (s.slot j).state ≠ .free) → (x.placed p).coverage ≠ BitVec.allOnes 512 →
       exec .placement s = .next
         { s with
           slots := s.slots.set k (x.placed p)
           openOrder := s.openOrder ++ [k]
           intake := r.touch k :: rest
           scatter := ⟨.placing, some c'⟩ })) ∧
  (∀ (s : State) (r : IntakeRecord) (rest : List IntakeRecord) (c c' : Cursor) (k : SlotIdx),
     s.SlotLaw → s.scatter = ⟨.placing, some c⟩ → s.intake = r :: rest →
     nextCursor (s.aperture r.aperture).fields r.data c = some c' →
     let p := placementAt (s.aperture r.aperture).fields r c
     s.slotWith .opened p.line = some k → ((s.slot k).placed p).coverage = BitVec.allOnes 512 →
     ∃ t, exec .placement s = .next t ∧ (t.slot k).state = .writing ∧ (t.slot k).reason = .full ∧
       (t.slot k).mask = BitVec.allOnes 64 ∧ (t.slot k).request = .ready ∧ k ∉ t.openOrder ∧
       t.flushOrder = s.flushOrder ++ [k] ∧ (∀ j, j ≠ k → t.slot j = s.slot j) ∧
       t.scatter = ⟨.placing, some c'⟩ ∧ t.intake.map (·.position) = s.intake.map (·.position))

/-- PLACEMENT waits: for a MERGING slot that holds the line (WAIT_MERGE), or, with no slot FREE, for one (WAIT_SLOT), and
then the oldest OPEN slot, if there is one, closes with reason EVICT (R68, R70, R86). -/
def Obligations.PlacementWaitsForASlot : Prop :=
  ∀ (s : State) (r : IntakeRecord) (rest : List IntakeRecord) (c : Cursor),
    s.scatter = ⟨.placing, some c⟩ → s.intake = r :: rest →
    let line := (placementAt (s.aperture r.aperture).fields r c).line
    s.slotWith .opened line = none →
    (∀ k, s.slotWith .merging line = some k →
      exec .placement s = .next { s with scatter := ⟨.waitMerge, some c⟩ }) ∧
    (s.slotWith .merging line = none → (∀ k, (s.slot k).state ≠ .free) →
      (s.openOrder = [] → exec .placement s = .next { s with scatter := ⟨.waitSlot, some c⟩ }) ∧
      (∀ k more, s.openOrder = k :: more →
        exec .placement s = .next ({ s with scatter := ⟨.waitSlot, some c⟩ }.closeSlot k .evict)))

/-- The last placement puts its bits into the OPEN slot of its line or into a slot opened for it, and removes the record
from the intake; the next record becomes SCATTERING or the engine goes IDLE (R63). When a pending fence waits for the
record, its touched slots are fence-marked and closed (R98); when the drain of its aperture waits for it, every OPEN slot
of that aperture closes, with reason RETIRE but for FULL and FENCE, which R88 puts before it (R18). -/
def Obligations.LastPlacementRemovesTheRecord : Prop :=
  ∀ (s : State) (r : IntakeRecord) (rest : List IntakeRecord) (c : Cursor) (k : SlotIdx),
    s.SlotLaw → s.scatter = ⟨.placing, some c⟩ → s.intake = r :: rest →
    nextCursor (s.aperture r.aperture).fields r.data c = none →
    let p := placementAt (s.aperture r.aperture).fields r c
    let fresh := s.slotWith .opened p.line = none ∧ s.slotWith .merging p.line = none ∧ (s.slot k).state = .free ∧
      ∀ j < k, (s.slot j).state ≠ .free
    s.slotWith .opened p.line = some k ∨ fresh →
    ∀ x : Slot, (s.slotWith .opened p.line = some k → x = s.slot k) →
    (fresh → x = { Slot.cleared with state := .opened, line := p.line, aperture := r.aperture, openTime := s.now }) →
    ∃ t, exec .placement s = .next t ∧ t.intake.map (·.position) = rest.map (·.position) ∧
      (t.slot k).coverage = (x.placed p).coverage ∧ (t.slot k).data = (x.placed p).data ∧ (t.slot k).line = p.line ∧
      (t.slot k).aperture = x.aperture ∧ (t.slot k).openTime = x.openTime ∧ (t.slot k).state ≠ .free ∧
      (rest = [] → t.scatter = ⟨.idle, none⟩) ∧
      (∀ n more, rest = n :: more → t.scatter = ⟨.placing, firstCursor n.data⟩ ∧
        ∃ m, t.intake.head? = some m ∧ m.state = .scattering) ∧
      (∀ ps, s.fence.state = .pending → s.fence.prior = some ps → ps.holds r = true →
        ∀ j, j = k ∨ j ∈ r.touched → (t.slot j).mark = true ∧ (t.slot j).state.flushing) ∧
      (∀ ps, (s.aperture r.aperture).state = .draining → (s.aperture r.aperture).drain = some ps → ps.holds r = true →
        ∀ j, (j = k ∧ x.aperture = r.aperture) ∨
            (j ≠ k ∧ (s.slot j).state = .opened ∧ (s.slot j).aperture = r.aperture) →
          (t.slot j).state.flushing ∧ (t.slot j).reason ∈ [.full, .fence, .retire] ∧
          (s.fence.state ≠ .pending → (x.placed p).coverage ≠ BitVec.allOnes 512 → (t.slot j).reason = .retire)) ∧
      t.events = s.events ∧ t.posted = s.posted ∧ t.tags = s.tags ∧ t.acceptCount = s.acceptCount

/-- One event closes every OPEN slot its causes name, with the first reason of FULL, FENCE, RETIRE, RESTART, GUARD,
GATHER, EVICT, AGE, sorts its bytes, fence-marks it when the record being scattered touched it and a pending fence waits
for that record, takes it off the touched-slot lists, and begins the flushes in open order; nothing else changes (R87 to
R89, R99). The end of an event closes, together with what its own causes name, every OPEN slot when the intake is empty
in QUIESCING (RESTART, R105), and the OPEN slots of the snapshots that a guarded head (R137) and the gather engine
(R119) take in it. -/
def Obligations.ClosingFollowsTheOpenOrder : Prop :=
  (∀ (s : State) (causes : List Cause), s.SlotLaw →
    let t := s.closeFor causes
    let order : List FlushReason := [.full, .fence, .retire, .restart, .guard, .gather, .evict, .age]
    let names := fun (k : SlotIdx) (r : FlushReason) => ∃ c ∈ causes, c.reason = r ∧ k ∈ c.slots
    let named := fun k : SlotIdx => causes.any (fun c => c.reason != FlushReason.none && c.slots.contains k)
    let closes := fun k => k ∈ s.openOrder ∧ named k = true
    let caught := fun k => ∃ r rest ps, s.intake = r :: rest ∧ r.state = .scattering ∧ s.fence.state = .pending ∧
      s.fence.prior = some ps ∧ ps.holds r = true ∧ k ∈ r.touched
    (∀ k, ¬ closes k → t.slot k = s.slot k) ∧
    (∀ k, closes k →
      (∃ n : Nat, order[n]? = some (t.slot k).reason ∧ names k (t.slot k).reason ∧
        ∀ m < n, ∀ r, order[m]? = some r → ¬ names k r) ∧
      (t.slot k).mask = wholeBytes (s.slot k).coverage ||| partBytes (s.slot k).coverage ∧
      ((t.slot k).state = if partBytes (s.slot k).coverage = 0 then .writing else .merging) ∧
      ((t.slot k).mark = true ↔ (s.slot k).mark = true ∨ caught k) ∧
      (t.slot k).request = .ready ∧ (t.slot k).line = (s.slot k).line ∧ (t.slot k).data = (s.slot k).data ∧
      (t.slot k).coverage = (s.slot k).coverage ∧ (t.slot k).aperture = (s.slot k).aperture ∧
      (t.slot k).openTime = (s.slot k).openTime) ∧
    t = { s with
      slots := t.slots
      openOrder := s.openOrder.filter (fun k => !named k)
      flushOrder := s.flushOrder ++ s.openOrder.filter named
      intake := s.intake.map (fun r => { r with touched := r.touched.filter (fun k => !named k) }) } ∧
    (∀ j < 64, ∀ c : BitSet512,
      ((wholeBytes c).getLsbD j = true ↔ ∀ q < 8, c.getLsbD (8 * j + q) = true) ∧
      ((partBytes c).getLsbD j = true ↔
        (∃ q < 8, c.getLsbD (8 * j + q) = true) ∧ ∃ q < 8, c.getLsbD (8 * j + q) = false))) ∧
  (∀ (s : State) (causes : List Cause),
    let t := s.settle causes
    let guards := fun e : ForwardEntry => s.forward.head? = some e ∧ (e.state = .behind ∨ e.state = .guardPrior) ∧
      ∃ ps, e.prior = some ps ∧ ∀ r ∈ s.intake, ps.holds r = false
    let gathers := fun (p : PlaceIdx) (e : Entry) => s.place p = some e ∧
      ((s.gather = .idle ∧ s.queuedOrder.head? = some p) ∨ s.gather = .priorWait p) ∧
      ∀ r ∈ s.intake, e.prior.holds r = false
    ∃ guarded gathered : List SlotIdx,
      (∀ e, guards e → guarded = s.slotsHolding (linesOfRange e.address e.beats)) ∧
      ((¬ ∃ e, guards e) → guarded = []) ∧
      (∀ p e, gathers p e →
        gathered = s.slotsHolding ((s.aperture e.aperture).fields.footprint e.address e.beats)) ∧
      ((¬ ∃ p e, gathers p e) → gathered = []) ∧
      (let u := s.closeFor (causes ++
        [⟨.restart, if s.partState = .quiescing ∧ s.intake = [] then s.openOrder else []⟩, ⟨.guard, guarded⟩,
          ⟨.gather, gathered⟩])
      t.slots = u.slots ∧ t.openOrder = u.openOrder ∧ t.flushOrder = u.flushOrder ∧ t.intake = u.intake) ∧
      (s.SlotLaw → s.partState = .quiescing → s.intake = [] → t.openOrder = [] ∧
        ∀ k, (s.slot k).state = .opened → (t.slot k).state.flushing ∧
          ((∀ c ∈ causes, k ∉ c.slots) → (t.slot k).reason = .restart)))

/-- MERGE_READ_COMPLETION: OK takes memory's values at the uncovered bits of the partly covered bytes and readies the
line write (R91); FAULT drops those bytes, raises MERGE_FAULT, notes the fault in a pending fence that marked the slot,
and frees the slot when no byte is left (R92, R100); a slot whose mask is reduced keeps its coverage and data (the
model's reading, log 11). A scatter engine that waits for the line, or for a FREE slot when this one is freed, goes on
in the same event (R70). -/
def Obligations.MergeReadCompletionMerges : Prop :=
  ∀ (s : State) (c : Completion) (line : Addr) (k : SlotIdx),
    s.tag c.tag = some ⟨.combine, .read, line, .slot k⟩ →
    let x := s.slot k
    let whole := wholeBytes x.coverage
    let waits := fun freed : Bool => (s.scatter.state = .waitSlot ∧ freed = true) ∨
      (s.scatter.state = .waitMerge ∧ s.cursorLine = some x.line)
    let completes := fun (v : State) (freed : Bool) =>
      (waits freed → exec (.mergeReadCompletion c) s = .next (v.scatterStep.state.settle v.scatterStep.causes)) ∧
      (¬ waits freed → exec (.mergeReadCompletion c) s = .next (v.settle []))
    (c.outcome = .ok → ∃ data : LineData,
      (∀ q < 512, data.getLsbD q =
        if (partBytes x.coverage).getLsbD (q / 8) && !x.coverage.getLsbD q then c.line.getLsbD q
        else x.data.getLsbD q) ∧
      completes ((s.setTag c.tag none).setSlot k { x with data := data, state := .writing, request := .ready })
        false) ∧
    (c.outcome = .fault →
      let t := (s.setTag c.tag none).raise .mergeFault (some x.aperture) x.line none
      let u := if s.fence.state = FenceState.pending ∧ x.mark = true
        then { t with fence := { t.fence with fault := true } } else t
      (whole ≠ 0#64 → completes (u.setSlot k { x with mask := whole, state := .writing, request := .ready }) false) ∧
      (whole = 0#64 → completes (u.freeSlot k) true))

/-- LINE_WRITE_COMPLETION frees the slot, with WRITE_FAULT on FAULT, noted by a pending fence that marked it (R93, R94,
R100); a scatter engine in WAIT_SLOT goes on in the same event (R70). -/
def Obligations.LineWriteCompletionFreesTheSlot : Prop :=
  ∀ (s : State) (c : Completion) (line : Addr) (k : SlotIdx),
    s.tag c.tag = some ⟨.combine, .write, line, .slot k⟩ →
    let x := s.slot k
    let t := s.setTag c.tag none
    let u := match c.outcome with
      | .ok => t
      | .fault =>
        let v := t.raise .writeFault (some x.aperture) x.line none
        if s.fence.state = FenceState.pending ∧ x.mark = true
          then { v with fence := { v.fence with fault := true } } else v
    let w := u.freeSlot k
    w.slot k = Slot.cleared ∧ (∀ j, j ≠ k → w.slot j = s.slot j) ∧
    (s.scatter.state ≠ .waitSlot → exec (.lineWriteCompletion c) s = .next (w.settle [])) ∧
    (s.scatter.state = .waitSlot →
      exec (.lineWriteCompletion c) s = .next (w.scatterStep.state.settle w.scatterStep.causes))

/-! ### What the blocks do at the end of an event -/

/-- Settling touches neither the port, the events, the tags, the scatter engine nor the record order; outside QUIESCING
it touches no output and no setting either (R41, R65). -/
def Obligations.SettlingLeavesTheRest : Prop :=
  ∀ (s : State) (causes : List Cause),
    let t := s.settle causes
    t.pending = s.pending ∧ t.now = s.now ∧ t.ready = s.ready ∧ t.outcome = s.outcome ∧ t.session = s.session ∧
    t.port = s.port ∧ t.acceptCount = s.acceptCount ∧ t.scatter = s.scatter ∧ t.posted = s.posted ∧ t.tags = s.tags ∧
    t.holder = s.holder ∧ t.used = s.used ∧ t.events = s.events ∧ t.receiver = s.receiver ∧
    t.intake.map (·.position) = s.intake.map (·.position) ∧ t.forward.tail = s.forward.tail ∧
    (s.partState ≠ .quiescing → t.partState = s.partState ∧ t.loader = s.loader ∧ t.flash = s.flash ∧
      t.staging = s.staging ∧ t.timing = s.timing ∧ t.trace = s.trace)

/-- At the end of an event a pending fence with an empty prior set and no marked slot becomes DONE, or DONE_FAULT when a
fault is noted, and any other fence stays (R101); an aperture whose drain condition holds becomes EMPTY with its fields
cleared, and any other stays, in QUIESCING as in RUN (R19, R22). QUIESCING ends in the event in which its six conditions
hold: every aperture and the staging record become EMPTY, the settings their defaults, and the loader begins to read;
otherwise QUIESCING goes on (R192, R193). -/
def Obligations.SettlingTestsFenceDrainsAndQuiescing : Prop :=
  ∀ (s : State) (causes : List Cause),
    let t := s.settle causes
    let complete := s.fence.state = .pending ∧ (∀ ps, s.fence.prior = some ps → ∀ r ∈ t.intake, ps.holds r = false) ∧
      ∀ k, (t.slot k).mark = false
    let ended := fun i => (s.aperture i).state = .draining ∧
      (∀ ps, (s.aperture i).drain = some ps → ∀ r ∈ t.intake, ps.holds r = false) ∧
      (∀ k, (t.slot k).state ≠ .free → (t.slot k).aperture ≠ i) ∧
      (∀ p e, t.place p = some e → e.aperture ≠ i) ∧
      ∀ h, t.port = .holding h → h.service ≠ .immediate i
    let quiet := t.port = .idle ∧ t.intake = [] ∧ t.scatter.state = .idle ∧ t.forward = [] ∧ t.posted = [] ∧
      (∀ k, (t.slot k).state = .free) ∧ (∀ p, t.place p = none) ∧ t.gather = .idle ∧ ∀ g, t.tag g = none
    (complete → t.fence = ⟨if s.fence.fault then .doneFault else .done, none, false⟩) ∧
    (¬ complete → t.fence = s.fence) ∧
    (¬ (s.partState = .quiescing ∧ quiet) →
      ∀ i, (ended i → t.aperture i = Aperture.cleared) ∧ (¬ ended i → t.aperture i = s.aperture i)) ∧
    (s.partState = .quiescing →
      (quiet → t.partState = .loading ∧ t.loader = .reading none ∧ t.flash.selN = false ∧
        (∀ i, t.aperture i = Aperture.cleared) ∧ t.staging = none ∧ t.timing = ⟨64, 2048, 4⟩ ∧
        ∃ more, t.trace = .flashShift [0x03#8, 0x00#8, 0x00#8, 0x00#8] :: more) ∧
      (¬ quiet → t.partState = .quiescing ∧ t.loader = s.loader ∧ t.staging = s.staging ∧ t.timing = s.timing ∧
        t.trace = s.trace ∧ t.flash = s.flash))

/-- At the end of an event the head of the forward queue and the gather engine have gone as far as they can. An
unguarded new head is ISSUING. A guarded one, new or in GUARD_PRIOR, waits in GUARD_PRIOR while a record of its prior
set is left, and then takes its snapshot of the slots holding a line it touches, which are closed if OPEN, and waits for
them in GUARD_SLOTS; with no slot left in its snapshot it is ISSUING (R133, R136, R137). An IDLE engine takes the oldest
QUEUED entry, which becomes GATHERING. It waits in PRIOR_WAIT while a record of the entry's prior set is left, and then
takes its snapshot of the slots holding a footprint line, which are closed if OPEN, and waits for them in SLOT_WAIT;
with no slot left in its snapshot it is READING, every footprint line unissued (R118, R119). -/
def Obligations.SettlingAdvancesHeadAndGather : Prop :=
  (∀ (s : State) (causes : List Cause) (e : ForwardEntry) (rest : List ForwardEntry),
    s.SlotLaw → s.forward = e :: rest →
    let t := s.settle causes
    let slots := s.slotsHolding (linesOfRange e.address e.beats)
    let issues := t.forward = { e with state := .issuing } :: rest
    (∀ k, k ∈ slots ↔ (s.slot k).state ≠ .free ∧ (s.slot k).line ∈ linesOfRange e.address e.beats) ∧
    (e.state = .behind → e.prior = none → issues) ∧
    (∀ ps, e.state = .behind ∨ e.state = .guardPrior → e.prior = some ps →
      ((∃ r ∈ s.intake, ps.holds r = true) → t.forward = { e with state := .guardPrior } :: rest) ∧
      ((∀ r ∈ s.intake, ps.holds r = false) →
        t.forward = { e with state := if slots = [] then .issuing else .guardSlots, snapshot := slots } :: rest ∧
        ∀ k ∈ slots, (t.slot k).state.flushing ∧
          ((s.slot k).state = .opened → (∀ c ∈ causes, k ∉ c.slots) → s.partState ≠ .quiescing →
            (t.slot k).reason = .guard))) ∧
    (e.state = .guardSlots → (e.snapshot = [] → issues) ∧ (e.snapshot ≠ [] → t.forward = s.forward)) ∧
    (e.state = .issuing ∨ e.state = .returning → t.forward = s.forward)) ∧
  (∀ (s : State) (causes : List Cause), s.SlotLaw →
    let t := s.settle causes
    let serves := fun (p : PlaceIdx) (e : Entry) =>
      let lines := (s.aperture e.aperture).fields.footprint e.address e.beats
      let slots := s.slotsHolding lines
      ((∃ r ∈ s.intake, e.prior.holds r = true) → t.gather = .priorWait p) ∧
      ((∀ r ∈ s.intake, e.prior.holds r = false) →
        t.gather = (if slots = [] then .reading p ⟨lines, [], lines.length, 0, false⟩ else .slotWait p slots) ∧
        (∀ k, k ∈ slots ↔ (s.slot k).state ≠ .free ∧ (s.slot k).line ∈ lines) ∧
        ∀ k ∈ slots, (t.slot k).state.flushing ∧
          ((s.slot k).state = .opened → (∀ c ∈ causes, k ∉ c.slots) → s.partState ≠ .quiescing →
            (t.slot k).reason = .gather ∨ (t.slot k).reason = .guard))
    let waits := t.gather = s.gather ∧ t.places = s.places ∧ t.queuedOrder = s.queuedOrder
    (s.gather = .idle → s.queuedOrder = [] → waits) ∧
    (∀ p rest e, s.gather = .idle → s.queuedOrder = p :: rest → s.place p = some e →
      t.queuedOrder = rest ∧ t.place p = some { e with state := .gathering } ∧ (∀ q, q ≠ p → t.place q = s.place q) ∧
      serves p e) ∧
    (∀ p e, s.gather = .priorWait p → s.place p = some e →
      serves p e ∧ t.places = s.places ∧ t.queuedOrder = s.queuedOrder) ∧
    (∀ p snapshot e, s.gather = .slotWait p snapshot → s.place p = some e →
      let lines := (s.aperture e.aperture).fields.footprint e.address e.beats
      (snapshot = [] → t.gather = .reading p ⟨lines, [], lines.length, 0, false⟩) ∧
      (snapshot ≠ [] → t.gather = s.gather) ∧ t.places = s.places ∧ t.queuedOrder = s.queuedOrder) ∧
    (∀ p job buffer, s.gather = .reading p job ∨ s.gather = .cancelWait p job ∨ s.gather = .immediate job buffer →
      waits))

/-! ### The memory port -/

/-- GRANT chooses by the three steps of R154: the holder while its allowance lasts, then the next requesting source in
rotation, then the holder again; it is granted the lowest FREE tag; and with no source requesting nothing changes.
GRANT issues what the granted source offers: the head's first unissued line, the oldest ready request of the
flush-order list, or the next footprint line of an entry or of an immediate read, under the granted tag (R90, R115, R120,
R135, R146, R150). -/
def Obligations.GrantFollowsTheArbiter : Prop :=
  (∀ s : State,
     let may := fun src => s.requesting src = true
     ((∀ src, ¬ may src) → exec .grant s = .next s) ∧
     (∀ src, may src →
       ((src = s.holder ∧ s.used < s.timing.allowance) ∨
         (¬ (may s.holder ∧ s.used < s.timing.allowance) ∧ src = s.holder.next) ∨
         (¬ (may s.holder ∧ s.used < s.timing.allowance) ∧ ¬ may s.holder.next ∧ src = s.holder.next.next) ∨
         (¬ s.used < s.timing.allowance ∧ ¬ may s.holder.next ∧ ¬ may s.holder.next.next ∧ src = s.holder)) →
       ∃ t g rec, exec .grant s = .next t ∧ t.holder = src ∧
         t.used = (if src = s.holder ∧ s.used < s.timing.allowance then s.used + 1 else 1) ∧
         s.tag g = none ∧ (∀ j < g, s.tag j ≠ none) ∧ t.tag g = some rec ∧ rec.source = src ∧
         ∀ j, j ≠ g → t.tag j = s.tag j)) ∧
  (∀ (s : State) (g : Tag) (n : Nat), s.freeTag = some g →
     (∀ k, s.choice = some (.combine, n) → s.combineOffer = some k →
       let x := s.slot k
       exec .grant s = .next
         { s with
           holder := .combine
           used := n
           slots := s.slots.set k { x with request := .outstanding g }
           tags := s.tags.set g
             (some ⟨.combine, if x.state = .merging then .read else .write, x.line, .slot k⟩)
           trace := .memory (if x.state = .merging then .lineRead g x.line
             else .lineWrite g x.line (x.data &&& bitsOfMask x.mask) x.mask) :: s.trace }) ∧
     (∀ p job line, s.choice = some (.gather, n) → s.gather = .reading p job → job.offer = some line →
       exec .grant s = .next
         { s with
           holder := .gather
           used := n
           gather := .reading p { job with unissued := job.unissued.tail, outstanding := job.outstanding ++ [g] }
           tags := s.tags.set g (some ⟨.gather, .read, line, .place p⟩)
           trace := .memory (.lineRead g line) :: s.trace }) ∧
     (∀ job buffer line, s.choice = some (.gather, n) → s.gather = .immediate job buffer → job.offer = some line →
       exec .grant s = .next
         { s with
           holder := .gather
           used := n
           gather := .immediate { job with unissued := job.unissued.tail, outstanding := job.outstanding ++ [g] } buffer
           tags := s.tags.set g (some ⟨.gather, .read, line, .immediateRead⟩)
           trace := .memory (.lineRead g line) :: s.trace }) ∧
     (∀ e rest l, s.choice = some (.forward, n) → s.forward = e :: rest → s.forwardOffer = some l → e.kind = .read →
       exec .grant s = .next
         { s with
           holder := .forward
           used := n
           forward := { e with
             lines := markGranted g e.lines
             state := if firstUnissued (markGranted g e.lines) = none then .returning else e.state } :: rest
           tags := s.tags.set g (some ⟨.forward, .read, l.line, .readHead⟩)
           trace := .memory (.lineRead g l.line) :: s.trace }) ∧
     (∀ e rest l, s.choice = some (.forward, n) → s.forward = e :: rest → s.forwardOffer = some l → e.kind = .write →
       let t := { s with
         holder := .forward
         used := n
         posted := s.posted ++ [OutstandingWrite.mk g l.line e.requester]
         tags := s.tags.set g (some ⟨.forward, .write, l.line, .outstandingWrite⟩)
         trace := .memory (.lineWrite g l.line (writeLine e.address e.data l.line) (writeMask e.address e.data l.line))
           :: s.trace }
       (firstUnissued (markGranted g e.lines) ≠ none →
         exec .grant s = .next { t with forward := { e with lines := markGranted g e.lines } :: rest }) ∧
       (firstUnissued (markGranted g e.lines) = none →
         let marks := fun d : Entry => decide (e.prior ≠ none ∧
           (d.state = .queued ∨ d.state = .gathering ∨ d.state = .ready) ∧ (s.aperture d.aperture).state ≠ .empty ∧
           (s.aperture d.aperture).fields.readOrdering = .strict ∧
           max (s.aperture d.aperture).fields.surfaceBase.toNat e.address.toNat <
             min (s.aperture d.aperture).fields.surfaceEnd (e.address.toNat + 8 * e.beats))
         exec .grant s = .next ({ t with
           forward := rest
           places := s.places.map (Option.map (fun d => if marks d then { d with stale := true } else d)) }.settle
             []))))

/-- A completion is identified by its tag alone, so the eight rows of completions have one meaning (the model's reading,
log 3). One whose tag is FREE changes no state anywhere in the part; one whose tag is OUTSTANDING makes that tag FREE and
no other (R151, R152). -/
def Obligations.CompletionsFollowTheirTag : Prop :=
  ∀ (s : State) (c : Completion),
    (∀ i ∈ [Instr.forwardReadCompletion c, .forwardWriteCompletion c, .mergeReadCompletion c, .lineWriteCompletion c,
      .immediateReadCompletion c, .gatherReadCompletion c, .cancelledReadCompletion c],
      exec i s = exec (.strayCompletion c) s) ∧
    (s.tag c.tag = none → exec (.strayCompletion c) s = .next s) ∧
    (∀ r, s.tag c.tag = some r → ∃ t, exec (.strayCompletion c) s = .next t ∧ t.tag c.tag = none ∧
      ∀ g, g ≠ c.tag → t.tag g = s.tag g)

/-- FORWARD_WRITE_COMPLETION removes the outstanding write and frees its tag; FAULT raises WRITE_FAULT with no aperture,
the line and the requester (R141).
FORWARD_READ_COMPLETION keeps the line's bytes, or raises READ_FAULT and lets no further line be issued; with the last
outstanding line the read leaves the queue and the port answers DATA, or ERROR FAULT if any line faulted (R140). -/
def Obligations.PassThroughCompletionsServeTheirOwners : Prop :=
  (∀ (s : State) (c : Completion) (line : Addr) (w : OutstandingWrite),
     s.tag c.tag = some ⟨.forward, .write, line, .outstandingWrite⟩ →
     s.posted.find? (fun v => v.tag == c.tag) = some w →
     exec (.forwardWriteCompletion c) s = .next
       ({ s with
         tags := s.tags.set c.tag none
         posted := s.posted.filter (fun v => v.tag != c.tag)
         events := match c.outcome with
           | .ok => s.events
           | .fault => s.events.raise .writeFault none line (some w.requester) }.settle [])) ∧
  (∀ (s : State) (c : Completion) (line : Addr) (e : ForwardEntry) (rest : List ForwardEntry),
     s.tag c.tag = some ⟨.forward, .read, line, .readHead⟩ → s.forward = e :: rest →
     ∃ buffer : ReadBuffer,
       (c.outcome = .fault → buffer = e.buffer) ∧
       (c.outcome = .ok → ∀ q < 1024,
         let kept := q / 8 < 8 * e.beats ∧ line.toNat ≤ e.address.toNat + q / 8 ∧
           e.address.toNat + q / 8 < line.toNat + 64
         (kept → buffer.bits.getLsbD q = c.line.getLsbD (8 * (e.address.toNat + q / 8 - line.toNat) + q % 8) ∧
           buffer.filled.getLsbD q = true) ∧
         (¬ kept → buffer.bits.getLsbD q = e.buffer.bits.getLsbD q ∧
           buffer.filled.getLsbD q = e.buffer.filled.getLsbD q)) ∧
       let e' : ForwardEntry := { e with
         lines := e.lines.map (fun l => if l.mark = .granted c.tag then { l with mark := .completed c.outcome } else l)
         state := if c.outcome = .fault then .returning else e.state
         buffer := buffer }
       let t := { s with
         tags := s.tags.set c.tag none
         events := match c.outcome with
           | .ok => s.events
           | .fault => s.events.raise .readFault none line (some e.requester) }
       let done := e'.state = .returning ∧ ∀ l ∈ e'.lines, ∀ g, l.mark ≠ .granted g
       (¬ done → exec (.forwardReadCompletion c) s = .next { t with forward := e' :: rest }) ∧
       (done → exec (.forwardReadCompletion c) s = .next
         (({ t with forward := rest, port := .idle }.answer e.requester
           (if e'.lines.any (fun l => l.mark == LineMark.completed .fault) then .error .fault
             else .data (e'.buffer.bytes (8 * e.beats)))).settle [])))

/-- IMMEDIATE_READ_COMPLETION places the line's bits, or raises READ_FAULT and issues no further line; with the last
outstanding line the port answers DATA, or ERROR FAULT if any line faulted, and the engine returns to IDLE (R115). -/
def Obligations.ImmediateReadCompletionServesTheRead : Prop :=
  ∀ (s : State) (c : Completion) (line : Addr) (job : ReadJob) (buffer : ReadBuffer) (r : HeldRead) (i : ApertureIdx),
    s.tag c.tag = some ⟨.gather, .read, line, .immediateRead⟩ → s.gather = .immediate job buffer →
    s.port = .holding r → r.service = .immediate i →
    let t := { s with
      tags := s.tags.set c.tag none
      events := match c.outcome with
        | .ok => s.events
        | .fault => s.events.raise .readFault (some i) line (some r.requester) }
    let f := (s.aperture i).fields
    let job' : ReadJob := { job with
      outstanding := job.outstanding.erase c.tag
      completed := job.completed + 1
      unissued := if c.outcome = .fault then [] else job.unissued
      faulted := job.faulted || decide (c.outcome = .fault) }
    let buffer' := match c.outcome with
      | .ok => f.fillForward (r.address.toNat - f.viewBase.toNat) (8 * r.beats) line c.line buffer
      | .fault => buffer
    (job'.outstanding ≠ [] ∨ job'.unissued ≠ [] →
      exec (.immediateReadCompletion c) s = .next { t with gather := .immediate job' buffer' }) ∧
    (job'.outstanding = [] → job'.unissued = [] → exec (.immediateReadCompletion c) s = .next
      (({ t with gather := .idle, port := .idle }.answer r.requester
        (if job'.faulted then .error .fault else .data (buffer'.bytes (8 * r.beats)))).settle []))

/-- GATHER_READ_COMPLETION places the line's bits by the inverse map, or raises READ_FAULT and issues no further line;
with the last outstanding line the entry becomes READY, or FAILED after a fault, with its expiry time, and the engine
returns to IDLE (R120, R121, R125).
CANCELLED_READ_COMPLETION discards the data, or raises READ_FAULT; with the last outstanding read the entry is freed,
and the engine takes a waiting immediate read or becomes IDLE (R129). -/
def Obligations.EntryReadCompletionsServeTheEntry : Prop :=
  (∀ (s : State) (c : Completion) (line : Addr) (p : PlaceIdx) (e : Entry) (job : ReadJob),
     s.tag c.tag = some ⟨.gather, .read, line, .place p⟩ → s.place p = some e → s.gather = .reading p job →
     let t := { s with
       tags := s.tags.set c.tag none
       events := match c.outcome with
         | .ok => s.events
         | .fault => s.events.raise .readFault (some e.aperture) line (some e.requester) }
     let f := (s.aperture e.aperture).fields
     let job' : ReadJob := { job with
       outstanding := job.outstanding.erase c.tag
       completed := job.completed + 1
       unissued := if c.outcome = .fault then [] else job.unissued
       faulted := job.faulted || decide (c.outcome = .fault) }
     let e' := match c.outcome with
       | .ok => { e with
           buffer := f.fillInverse (e.address.toNat - f.viewBase.toNat) (8 * e.beats) line c.line e.buffer }
       | .fault => e
     (job'.outstanding ≠ [] ∨ job'.unissued ≠ [] → exec (.gatherReadCompletion c) s = .next
       { t with places := s.places.set p (some e'), gather := .reading p job' }) ∧
     (job'.outstanding = [] → job'.unissued = [] → exec (.gatherReadCompletion c) s = .next
       ({ t with
         places := s.places.set p (some { e' with
           state := if job'.faulted then .failed else .ready
           expiry := some (s.now + s.timing.discardLimit) })
         gather := .idle }.settle []))) ∧
  (∀ (s : State) (c : Completion) (line : Addr) (p : PlaceIdx) (e : Entry) (job : ReadJob),
     s.DeferredLaw → s.tag c.tag = some ⟨.gather, .read, line, .place p⟩ → s.place p = some e →
     s.gather = .cancelWait p job →
     let t := { s with
       tags := s.tags.set c.tag none
       events := match c.outcome with
         | .ok => s.events
         | .fault => s.events.raise .readFault (some e.aperture) line (some e.requester) }
     (job.outstanding ≠ [c.tag] → exec (.cancelledReadCompletion c) s = .next
       { t with gather := .cancelWait p { job with
         outstanding := job.outstanding.erase c.tag
         completed := job.completed + 1
         unissued := if c.outcome = .fault then [] else job.unissued
         faulted := job.faulted || decide (c.outcome = .fault) } }) ∧
     (job.outstanding = [c.tag] → ∃ next : Gather, exec (.cancelledReadCompletion c) s = .next
         ({ t with places := s.places.set p none, gather := next }.settle []) ∧
       (∀ r i, s.port = .holding r → r.service = .immediate i → next = .immediate
         (ReadJob.start ((s.aperture i).fields.footprint r.address r.beats)) ReadBuffer.blank) ∧
       (¬ s.holdsImmediate → next = .idle)))

/-! ### The management link -/

/-- A frame that is not handed to its command changes nothing but the receiver, and is answered by the first condition
of R161 that applies: BAD_CHECK, then UNKNOWN, then LENGTH, then BUSY. -/
def Obligations.RefusedFramesChangeNothing : Prop :=
  ∀ (s : State) (f : Frame), s.receiver.phase = .receiving →
    let commands : List (Byte × (Frame → Instr) × (Nat × Nat) × Bool) :=
      [(0x01#8, .getStatus, (0, 0), true), (0x02#8, .getAperture, (1, 1), false), (0x03#8, .getEvents, (0, 0), true),
       (0x04#8, .dumpSlots, (0, 0), true), (0x05#8, .dumpDeferred, (0, 0), true), (0x20#8, .stage, (20, 20), false),
       (0x21#8, .commit, (1, 1), false), (0x22#8, .suspend, (1, 1), false), (0x23#8, .resume, (1, 1), false),
       (0x24#8, .retire, (1, 1), false), (0x2C#8, .fence, (0, 0), false), (0x30#8, .clearEvents, (1, 1), true),
       (0x31#8, .setTiming, (5, 5), false), (0x32#8, .setAttention, (1, 1), false), (0x40#8, .flashOpen, (0, 0), false),
       (0x41#8, fun g => .flashXfer g [], (2, 33), false), (0x42#8, .flashClose, (0, 0), false),
       (0x5A#8, .restart, (0, 0), false)]
    (∀ code, f.check ≠ frameCheck code f.args →
      exec (.unknownCodeFrame code f) s = .next (s.responding code f .badCheck)) ∧
    (∀ code, f.check = frameCheck code f.args → (∀ c ∈ commands, c.1 ≠ code) →
      exec (.unknownCodeFrame code f) s = .next (s.responding code f .unknown)) ∧
    ∀ c ∈ commands,
      (f.check ≠ frameCheck c.1 f.args → exec (c.2.1 f) s = .next (s.responding c.1 f .badCheck)) ∧
      (f.check = frameCheck c.1 f.args →
        (f.args.length < c.2.2.1.1 ∨ c.2.2.1.2 < f.args.length →
          exec (c.2.1 f) s = .next (s.responding c.1 f .length)) ∧
        (c.2.2.1.1 ≤ f.args.length → f.args.length ≤ c.2.2.1.2 → c.2.2.2 = false → s.partState ≠ .run →
          exec (c.2.1 f) s = .next (s.responding c.1 f .busy)))

/-- STAGE replaces the staging record whole with the image's fields and answers OK; an undefined code in an enumerated
field answers INVALID, detail FIELD, and leaves it (R7, R198). -/
def Obligations.StageReplacesTheStagingRecord : Prop :=
  ∀ (s : State) (f : Frame), s.FrameArrives 0x20#8 f → s.partState = .run → f.args.length = 20 →
    let undefinedCode := 3 < (byteAt f.args 15).toNat ∨ 1 < (byteAt f.args 16).toNat ∨
      2 < (byteAt f.args 17).toNat ∨ 1 < (byteAt f.args 18).toNat ∨ 1 < (byteAt f.args 19).toNat
    (undefinedCode → exec (.stage f) s = .next (s.responding 0x20#8 f (.invalid .field))) ∧
    (¬ undefinedCode → ∃ g : Fields, g.image = f.args ∧
      exec (.stage f) s = .next ({ s with staging := some g }.responding 0x20#8 f (.ok [])))

/-- COMMIT is decided by the first of the conditions of R8; a refused one changes nothing but the receiver, an accepted
one installs the staged fields as ACTIVE and empties the staging record (R8, R10, R12). -/
def Obligations.CommitFollowsItsConditions : Prop :=
  ∀ (s : State) (f : Frame) (b : Byte), s.FrameArrives 0x21#8 f → s.partState = .run → f.args = [b] →
    let refused := fun r => exec (.commit f) s = .next (s.responding 0x21#8 f r)
    let firstOf := fun (overlaps : Fields → Bool) (j : ApertureIdx) =>
      ((s.aperture j).state ≠ .empty ∧ overlaps (s.aperture j).fields = true) ∧
        ∀ m < j, ¬ ((s.aperture m).state ≠ .empty ∧ overlaps (s.aperture m).fields = true)
    (7 < b.toNat → refused (.invalid .index)) ∧
    ∀ i : ApertureIdx, i.val = b.toNat →
      (s.staging = none → refused .state) ∧
      ∀ g, s.staging = some g →
        ((s.aperture i).state ≠ .empty → refused .state) ∧
        ((s.aperture i).state = .empty →
          (∀ d, g.invalid = some d → refused (.invalid d)) ∧
          (g.valid = true →
            (∀ j, firstOf g.viewsOverlap j → refused (.overlap j)) ∧
            ((∀ j, ¬ firstOf g.viewsOverlap j) →
              (∀ j, firstOf g.surfacesOverlap j → refused (.overlap j)) ∧
              ((∀ j, ¬ firstOf g.surfacesOverlap j) → exec (.commit f) s = .next
                ({ s with
                  apertures := s.apertures.set i ⟨.active, g, none⟩
                  staging := none }.responding 0x21#8 f (.ok []))))))

/-- The validity checks of R9 in their order: the first that fails names the detail, with the widths, heights and
extents of R2. -/
def Obligations.ValidityChecksFollowTheirOrder : Prop :=
  ∀ g : Fields,
    let W := g.width.toNat
    let H := g.height.toNat
    let d := g.depth.toNat
    let turned := g.orientation = .r90 ∨ g.orientation = .r270
    ∀ Ws Hs : Nat, (turned → Ws = H ∧ Hs = W) → (¬ turned → Ws = W ∧ Hs = H) →
    let tests : List (Detail × Prop) :=
      [(.width, 1 ≤ W ∧ W ≤ 8192), (.height, 1 ≤ H ∧ H ≤ 8192),
       (.depth, d = 1 ∨ d = 2 ∨ d = 4 ∨ d = 8 ∨ d = 16), (.rowMultiple, 8 ∣ W * d),
       (.pitchFit, 1 ≤ g.pitch.toNat ∧ g.pitch.toNat ≤ 1024 ∧ Ws * d ≤ g.pitch.toNat * 64 * 8),
       (.viewExtent, g.viewBase.toNat + W * H * d / 8 ≤ 0x100000000),
       (.surfaceExtent, g.surfaceBase.toNat + g.pitch.toNat * 64 * Hs ≤ 0x100000000),
       (.alignment, 0x1000 ∣ g.viewBase.toNat ∧ 0x40 ∣ g.surfaceBase.toNat)]
    (∀ (n : Nat) (e : Detail) (p : Prop), tests[n]? = some (e, p) → ¬ p →
      (∀ m < n, ∀ q : Detail × Prop, tests[m]? = some q → q.2) → g.invalid = some e) ∧
    ((∀ q : Detail × Prop, q ∈ tests → q.2) → g.invalid = none)

/-- SUSPEND and RESUME answer by the state of the aperture and change nothing but that state (R13, R15, R16).
RETIRE of an ACTIVE or SUSPENDED aperture answers ACCEPTED: it enters DRAINING with a prior set restricted to it, its
entries are cancelled, its OPEN slots closed and the drain tested; in EMPTY or DRAINING it answers STATE (R17). -/
def Obligations.ApertureStateCommandsMoveTheState : Prop :=
  (∀ (s : State) (f : Frame) (b : Byte), s.partState = .run → f.args = [b] →
     (s.FrameArrives 0x22#8 f →
       (7 < b.toNat → exec (.suspend f) s = .next (s.responding 0x22#8 f (.invalid .index))) ∧
       ∀ i : ApertureIdx, i.val = b.toNat →
         ((s.aperture i).state = .active → exec (.suspend f) s = .next
           ((s.setAperture i { s.aperture i with state := .suspended }).responding 0x22#8 f (.ok []))) ∧
         ((s.aperture i).state = .suspended → exec (.suspend f) s = .next (s.responding 0x22#8 f (.ok []))) ∧
         ((s.aperture i).state = .empty ∨ (s.aperture i).state = .draining →
           exec (.suspend f) s = .next (s.responding 0x22#8 f .state))) ∧
     (s.FrameArrives 0x23#8 f →
       (7 < b.toNat → exec (.resume f) s = .next (s.responding 0x23#8 f (.invalid .index))) ∧
       ∀ i : ApertureIdx, i.val = b.toNat →
         ((s.aperture i).state = .suspended → exec (.resume f) s = .next
           ((s.setAperture i { s.aperture i with state := .active }).responding 0x23#8 f (.ok []))) ∧
         ((s.aperture i).state = .active → exec (.resume f) s = .next (s.responding 0x23#8 f (.ok []))) ∧
         ((s.aperture i).state = .empty ∨ (s.aperture i).state = .draining →
           exec (.resume f) s = .next (s.responding 0x23#8 f .state)))) ∧
  (∀ (s : State) (f : Frame) (b : Byte), s.FrameArrives 0x24#8 f → s.partState = .run → f.args = [b] →
     (7 < b.toNat → exec (.retire f) s = .next (s.responding 0x24#8 f (.invalid .index))) ∧
     ∀ i : ApertureIdx, i.val = b.toNat →
       ((s.aperture i).state = .empty ∨ (s.aperture i).state = .draining →
         exec (.retire f) s = .next (s.responding 0x24#8 f .state)) ∧
       ((s.aperture i).state = .active ∨ (s.aperture i).state = .suspended → exec (.retire f) s = .next
         ((((s.setAperture i ⟨.draining, (s.aperture i).fields, some ⟨s.acceptCount, some i⟩⟩).cancelEntries
           (fun e => e.aperture == i)).settle
             [⟨.retire, s.openOrder.filter (fun k => (s.slot k).aperture == i)⟩]).responding 0x24#8 f .accepted)))

/-- FENCE answers BUSY while a fence is PENDING; otherwise ACCEPTED: it takes a prior set of all intake records, clears
the fault indication, marks every slot that is not FREE, closes every OPEN slot and tests for completion (R96). -/
def Obligations.FenceMarksAndFlushes : Prop :=
  ∀ (s : State) (f : Frame), s.FrameArrives 0x2C#8 f → s.partState = .run → f.args = [] →
    (s.fence.state = .pending → exec (.fence f) s = .next (s.responding 0x2C#8 f .busy)) ∧
    (s.fence.state ≠ .pending → exec (.fence f) s = .next
      (({ s with
        fence := ⟨.pending, some ⟨s.acceptCount, none⟩, false⟩
        slots := s.slots.map (fun x : Slot => if x.state = SlotState.free then x else { x with mark := true }) }.settle
          [⟨.fence, s.openOrder⟩]).responding 0x2C#8 f .accepted))

/-- GET_STATUS answers OK with 31 bytes that report the state as it stood, and returns a DONE or DONE_FAULT fence to
IDLE; nothing else changes (R102, R167, R200). -/
def Obligations.GetStatusReportsAndReadsTheFence : Prop :=
  ∀ (s : State) (f : Frame), s.FrameArrives 0x01#8 f → f.args = [] →
    let status := s.statusImage
    let slots := fun st => (List.finRange 16).countP (fun k => (s.slot k).state == st)
    let entries := fun st => (List.finRange 4).countP (fun p => (s.place p).any (fun e => e.state == st))
    exec (.getStatus f) s = .next
      ({ s with fence := if s.fence.state = FenceState.done ∨ s.fence.state = FenceState.doneFault then ⟨.idle, none, false⟩
          else s.fence }.responding 0x01#8 f (.ok status)) ∧
    status.length = 31 ∧ status[0]? = some s.partState.code ∧ status[1]? = some s.outcome.code ∧
    (∀ n, s.outcome = .loaded n → status[2]? = some (BitVec.ofNat 8 n)) ∧
    (∀ i : ApertureIdx, status[3 + i.val]? = some (s.aperture i).state.code) ∧
    (∃ set : Byte, status[11]? = some set ∧ ∀ i : ApertureIdx,
      set.getLsbD i.val = decide ((s.aperture i).state = .draining)) ∧
    status[12]? = some (BitVec.ofNat 8 s.forward.length) ∧ status[13]? = some (BitVec.ofNat 8 s.intake.length) ∧
    [status[14]?, status[15]?, status[16]?, status[17]?] =
      [SlotState.free, .opened, .merging, .writing].map (fun st => some (BitVec.ofNat 8 (slots st))) ∧
    [status[18]?, status[19]?, status[20]?, status[21]?, status[22]?] =
      [EntryState.queued, .gathering, .ready, .failed, .cancelled].map
        (fun st => some (BitVec.ofNat 8 (entries st))) ∧
    status[23]? = some s.fence.state.code ∧ status[24]? = some s.session.code ∧
    status[25]? = some s.events.flags ∧
    [status[26]?, status[27]?] = [some (BitVec.ofNat 8 (s.timing.ageLimit / 256)),
      some (BitVec.ofNat 8 s.timing.ageLimit)] ∧
    [status[28]?, status[29]?] = [some (BitVec.ofNat 8 (s.timing.discardLimit / 256)),
      some (BitVec.ofNat 8 s.timing.discardLimit)] ∧
    status[30]? = some (BitVec.ofNat 8 s.timing.allowance)

/-- GET_APERTURE carries one byte, the index: above 7 it is INVALID, detail INDEX; otherwise it is OK with the aperture's
state and image, which for an EMPTY aperture is the image of the EMPTY values and always reads back as the aperture's
fields; it changes nothing (R168). GET_EVENTS is OK with the flags, the counts in kind order, the last-fault record and the
mask, and changes nothing (R175). -/
def Obligations.ApertureAndEventReportsChangeNothing : Prop :=
  ∀ (s : State) (f : Frame),
    (s.FrameArrives 0x02#8 f → s.partState = .run →
      (f.args.length ≠ 1 → exec (.getAperture f) s = .next (s.responding 0x02#8 f .length)) ∧
      ∀ b, f.args = [b] →
        (7 < b.toNat → exec (.getAperture f) s = .next (s.responding 0x02#8 f (.invalid .index))) ∧
        ∀ i : ApertureIdx, i.val = b.toNat →
          exec (.getAperture f) s = .next
            (s.responding 0x02#8 f (.ok ((s.aperture i).state.code :: (s.aperture i).fields.image))) ∧
          (s.aperture i).fields.image.length = 20 ∧
          fieldsOfImage (s.aperture i).fields.image = some (s.aperture i).fields ∧
          (s.TableLaw → (s.aperture i).state = .empty →
            (s.aperture i).fields = ⟨0, 0, 0, 0, 0, 0, .r0, false, .readWrite, .ordered, .strict⟩)) ∧
    (s.FrameArrives 0x03#8 f → f.args = [] → ∃ last : List Byte, exec (.getEvents f) s = .next
        (s.responding 0x03#8 f (.ok ([s.events.flags] ++ s.events.counts.toList ++ last ++ [s.events.attention]))) ∧
      last.length = 7 ∧ (s.events.lastFault = none → last = [0xFF, 0xFF, 0, 0, 0, 0, 0xFF]) ∧
      ∀ r, s.events.lastFault = some r →
        last[0]? = some (BitVec.ofNat 8 r.kind.number.val) ∧
        last[1]? = some (r.aperture.elim 0xFF#8 (fun i => BitVec.ofNat 8 i.val)) ∧
        numberOf (slice last 2 4) = r.address.toNat ∧
        last[6]? = some (r.requester.elim 0xFF#8 (fun q => BitVec.ofNat 8 q.val)))

/-- DUMP_SLOTS answers OK with 16 records of 10 bytes and DUMP_DEFERRED with 4 records of 15 bytes; both change nothing
but the receiver. A place record holds the time to expiry, 0 without one, and for the GATHERING or CANCELLED entry the
number of its footprint lines and of its completed reads, whatever their outcome (the model's reading, log 24), 0 in
other states (R130, R169, R170, R200). -/
def Obligations.DumpsChangeNothing : Prop :=
  ∀ (s : State) (f : Frame), f.args = [] →
    (s.FrameArrives 0x04#8 f → ∃ data : List Byte, data.length = 160 ∧
      exec (.dumpSlots f) s = .next (s.responding 0x04#8 f (.ok data)) ∧
      ∀ k : SlotIdx, (s.slot k = Slot.cleared → slice data (10 * k.val) 10 = List.replicate 10 0) ∧
        data[10 * k.val]? = some (s.slot k).state.code ∧
        numberOf (slice data (10 * k.val + 1) 4) = (s.slot k).line.toNat ∧
        data[10 * k.val + 5]? = some (BitVec.ofNat 8 (s.slot k).aperture.val) ∧
        numberOf (slice data (10 * k.val + 6) 2) = (List.range 512).countP (fun q => (s.slot k).coverage.getLsbD q) ∧
        data[10 * k.val + 8]? = some (if (s.slot k).mark then 1 else 0) ∧
        data[10 * k.val + 9]? = some (s.slot k).reason.code) ∧
    (s.FrameArrives 0x05#8 f → ∃ data : List Byte, data.length = 60 ∧
      exec (.dumpDeferred f) s = .next (s.responding 0x05#8 f (.ok data)) ∧
      ∀ p : PlaceIdx, (s.place p = none → slice data (15 * p.val) 15 = List.replicate 15 0) ∧
        ∀ e, s.place p = some e → data[15 * p.val]? = some e.state.code ∧
          data[15 * p.val + 1]? = some (BitVec.ofNat 8 e.requester.val) ∧
          numberOf (slice data (15 * p.val + 2) 4) = e.address.toNat ∧
          data[15 * p.val + 6]? = some (BitVec.ofNat 8 e.beats) ∧
          data[15 * p.val + 7]? = some (BitVec.ofNat 8 e.aperture.val) ∧
          data[15 * p.val + 8]? = some (if e.stale then 1 else 0) ∧
          (∀ x, e.expiry = some x → x - s.now < 65536 →
            numberOf (slice data (15 * p.val + 9) 2) = x - s.now) ∧
          (e.expiry = none → numberOf (slice data (15 * p.val + 9) 2) = 0) ∧
          (let lines := numberOf (slice data (15 * p.val + 11) 2)
          let completed := numberOf (slice data (15 * p.val + 13) 2)
          (e.state = .queued ∨ e.state = .ready ∨ e.state = .failed → lines = 0 ∧ completed = 0) ∧
          (e.state = .gathering ∨ e.state = .cancelled →
            lines = ((s.aperture e.aperture).fields.footprint e.address e.beats).length % 65536 ∧
            (∀ job, s.gather = .reading p job ∨ s.gather = .cancelWait p job → completed = job.completed % 65536) ∧
            ((∀ job, s.gather ≠ .reading p job ∧ s.gather ≠ .cancelWait p job) → completed = 0))))

/-- CLEAR_EVENTS carries one byte, every value of it defined: the flags and counts of the kinds it names are cleared, the
last-fault record is emptied when its kind is named, the rest of the event unit and of the part stays, and ATTN follows
the flags; a raise that follows sets the flag again, with count 1 and, for a kind that records, the record (R176). -/
def Obligations.ClearEventsActsOnTheMask : Prop :=
  ∀ (s : State) (f : Frame), s.FrameArrives 0x30#8 f →
    (f.args.length ≠ 1 → exec (.clearEvents f) s = .next (s.responding 0x30#8 f .length)) ∧
    ∀ m : Byte, f.args = [m] → ∃ ev : EventUnit,
      exec (.clearEvents f) s = .next ({ s with events := ev }.responding 0x30#8 f (.ok [])) ∧
      ev.attention = s.events.attention ∧
      (∀ k : Fin 8, (m.getLsbD k.val = true → ev.flags.getLsbD k.val = false ∧ ev.counts[k] = 0) ∧
        (m.getLsbD k.val = false → ev.flags.getLsbD k.val = s.events.flags.getLsbD k.val ∧
          ev.counts[k] = s.events.counts[k])) ∧
      (∀ r, s.events.lastFault = some r → ev.lastFault = if m.getLsbD r.kind.number.val then none else some r) ∧
      (s.events.lastFault = none → ev.lastFault = none) ∧
      (m = 0#8 → ev = s.events) ∧
      (ev.attn = true ↔ ∃ k : Fin 8, ev.flags.getLsbD k.val = true ∧ ev.attention.getLsbD k.val = true) ∧
      ∀ k i a q, m.getLsbD k.number.val = true →
        (ev.raise k i a q).flags.getLsbD k.number.val = true ∧ (ev.raise k i a q).counts[k.number] = 1 ∧
        (k ≠ .tableFull → k ≠ .linkError → (ev.raise k i a q).lastFault = some ⟨k, i, a, q⟩)

/-- A raise sets the kind's flag, adds one to its count unless it is 255, overwrites the last-fault record for the kinds
that record, and changes nothing else of the event unit (R173, R174); SET_ATTENTION sets the mask and nothing else (R177);
and ATTN is high exactly while a selected flag is set (R178). -/
def Obligations.RaisesAndAttentionDriveAttn : Prop :=
  (∀ (e : EventUnit) (k : EventKind) (i : Option ApertureIdx) (a : Addr) (q : Option Requester),
    let t := e.raise k i a q
    t.attention = e.attention ∧
    (∀ j : Fin 8, t.flags.getLsbD j.val = (e.flags.getLsbD j.val || decide (j = k.number)) ∧
      t.counts[j].toNat = if j = k.number then min 255 (e.counts[j].toNat + 1) else e.counts[j].toNat) ∧
    (k = .tableFull ∨ k = .linkError → t.lastFault = e.lastFault) ∧
    (k ≠ .tableFull → k ≠ .linkError → t.lastFault = some ⟨k, i, a, q⟩)) ∧
  (∀ (s : State) (f : Frame) (m : Byte), s.FrameArrives 0x32#8 f → s.partState = .run → f.args = [m] →
    exec (.setAttention f) s = .next
      ({ s with events := { s.events with attention := m } }.responding 0x32#8 f (.ok []))) ∧
  ∀ s : State, s.attn = true ↔
    ∃ k : Fin 8, s.events.flags.getLsbD k.val = true ∧ s.events.attention.getLsbD k.val = true

/-- SET_TIMING sets the three settings together, and closes with reason AGE the OPEN slots whose new deadline is
reached; settings out of range answer INVALID, detail FIELD, and change nothing (R172). -/
def Obligations.SetTimingSetsAllThree : Prop :=
  ∀ (s : State) (f : Frame), s.FrameArrives 0x31#8 f → s.partState = .run → f.args.length = 5 →
    let age := numberOf (slice f.args 0 2)
    let discard := numberOf (slice f.args 2 2)
    let allowance := (byteAt f.args 4).toNat
    let fits := age ≤ 4095 ∧ 16 ≤ discard ∧ 1 ≤ allowance ∧ allowance ≤ 15
    (¬ fits → exec (.setTiming f) s = .next (s.responding 0x31#8 f (.invalid .field))) ∧
    (fits → exec (.setTiming f) s = .next
      (({ s with timing := ⟨age, discard, allowance⟩ }.closeFor
        [⟨.age, s.openOrder.filter (fun k => age ≠ 0 ∧ (s.slot k).openTime + age ≤ s.now)⟩]).responding 0x31#8 f
          (.ok [])))

/-- FLASH_OPEN carries no argument bytes and is taken in RUN: it opens a CLOSED session DESELECTED, with FL_SEL_N staying
high, and is BUSY in an open one; it puts nothing on the flash link (R188). FLASH_CLOSE closes the session, FL_SEL_N
rising if it was low (R190). -/
def Obligations.FlashSessionOpensAndCloses : Prop :=
  ∀ (s : State) (f : Frame),
    (s.FrameArrives 0x40#8 f →
      (f.args ≠ [] → exec (.flashOpen f) s = .next (s.responding 0x40#8 f .length)) ∧
      (f.args = [] → s.partState ≠ .run → exec (.flashOpen f) s = .next (s.responding 0x40#8 f .busy)) ∧
      (f.args = [] → s.partState = .run →
        (s.session = .closed → exec (.flashOpen f) s = .next
            ({ s with session := .deselected }.responding 0x40#8 f (.ok [])) ∧
          (s.PartLaw → s.flash.selN = true)) ∧
        (s.session ≠ .closed → exec (.flashOpen f) s = .next (s.responding 0x40#8 f .busy)))) ∧
    (s.FrameArrives 0x42#8 f → s.partState = .run → f.args = [] →
      (s.session = .closed → exec (.flashClose f) s = .next (s.responding 0x42#8 f (.ok []))) ∧
      (s.session ≠ .closed → exec (.flashClose f) s = .next
        ({ s with
          session := .closed
          flash := ⟨true, false, false⟩
          trace := if s.flash.selN then s.trace else .flashSelect true :: s.trace }.responding 0x42#8 f (.ok []))))

/-- FLASH_XFER answers STATE in a CLOSED session and INVALID, detail FIELD, for an undefined flag byte; otherwise it
selects the flash if it was not, shifts the payload out, leaves the flash selected or not as the flag says, and returns
the bytes shifted in. The levels of FL_CLK and FL_DO afterwards are free, log 7 (R189). -/
def Obligations.FlashTransferShiftsThePayload : Prop :=
  ∀ (s : State) (f : Frame) (flag : Byte) (payload flashIn : List Byte), s.FrameArrives 0x41#8 f → s.partState = .run →
    s.PartLaw → f.args = flag :: payload → 1 ≤ payload.length → payload.length ≤ 32 →
    flashIn.length = payload.length →
    (s.session = .closed → exec (.flashXfer f flashIn) s = .next (s.responding 0x41#8 f .state)) ∧
    (s.session ≠ .closed →
      (1 < flag.toNat → exec (.flashXfer f flashIn) s = .next (s.responding 0x41#8 f (.invalid .field))) ∧
      (∀ selects : List Output, selects = (if s.session = .selected then [] else [.flashSelect false]) →
        (flag = 0 → ∃ clk dout n, exec (.flashXfer f flashIn) s = .next
          ({ s with
            session := .selected
            flash := ⟨false, clk, dout⟩
            trace := .flashShift payload :: (selects ++ s.trace)
            freeCount := n }.responding 0x41#8 f (.ok flashIn))) ∧
        (flag = 1 → ∃ clk dout n, exec (.flashXfer f flashIn) s = .next
          ({ s with
            session := .deselected
            flash := ⟨true, clk, dout⟩
            trace := .flashSelect true :: .flashShift payload :: (selects ++ s.trace)
            freeCount := n }.responding 0x41#8 f (.ok flashIn)))))

/-- RESTART answers ACCEPTED: the part enters QUIESCING with READY low, the flash session is closed by force, every
deferred entry is cancelled, and the demand and the conditions of QUIESCING are tested in the same event (R191, R192). -/
def Obligations.RestartBeginsQuiescing : Prop :=
  ∀ (s : State) (f : Frame), s.FrameArrives 0x5A#8 f → s.partState = .run → f.args = [] → s.PartLaw →
    exec (.restart f) s = .next
      ((({ s with
        partState := .quiescing
        ready := false
        session := .closed
        flash := ⟨true, false, false⟩
        trace := if s.flash.selN then s.trace else .flashSelect true :: s.trace }.cancelEntries
          (fun _ => true)).settle []).responding 0x5A#8 f .accepted)

/-- The edges of MG_SEL_N and the end of a response: a fall starts an empty frame outside HELD; a rise in RECEIVING is a
short frame and raises LINK_ERROR, in any other state it ends the selection without an event; the response's end enters
TRAILING; what the receiver has kept of a frame stays until a fall or a short frame (the model's choice, log 25). MG_DO is
high in HELD, and else not driven, 00h, the response or FFh by the receiver's state (R160, R163, R164). -/
def Obligations.SelectionEdgesMoveTheReceiver : Prop :=
  ∀ s : State,
    (s.receiver.selHigh = true →
      (s.partState ≠ .held → exec .selectionStart s = .next { s with receiver := ⟨.receiving, [], false⟩ }) ∧
      (s.partState = .held → exec .selectionStart s = .next
        { s with receiver := { s.receiver with selHigh := false } })) ∧
    (s.receiver.selHigh = false →
      (s.receiver.phase = .receiving → exec .shortFrame s = .next
        ({ s with receiver := ⟨.idle, [], true⟩ }.raise .linkError none 0 none)) ∧
      (s.receiver.phase ≠ .receiving → exec .selectionEnd s = .next
        { s with receiver := ⟨.idle, s.receiver.kept, true⟩ })) ∧
    (∀ r, s.receiver.phase = .responding r → exec .responseEnd s = .next
      { s with receiver := { s.receiver with phase := .trailing } }) ∧
    (s.partState = .held → s.mgDo = .high) ∧
    (s.partState ≠ .held →
      (s.receiver.phase = .idle → s.mgDo = .undriven) ∧ (s.receiver.phase = .receiving → s.mgDo = .zeros) ∧
      (∀ r, s.receiver.phase = .responding r → s.mgDo = .response r) ∧
      (s.receiver.phase = .trailing → s.mgDo = .ones))

/-! ### Translation and images -/

/-- Every view bit of a valid record has one stored place: bit `k` of the view byte at offset `b` is bit `e` of the view
element `(x, y)` (R25, R26), which mirror and orientation take to `(u, v)` (R27, R28), whose bits begin at the stored bit
address of R29; its line and its position in the line are those of R29; it lies inside the surface extent and outside the
row tails (R31); and the inverse map leads back from it (R35). The footprint of a range in the view window is the
increasing list, each line once, of the lines that hold a stored bit of one of its bytes (R36). -/
def Obligations.InverseMapLeadsBack : Prop :=
  (∀ (f : Fields) (b k : Nat), f.valid = true → f.viewBase.toNat + b < f.viewEnd → k < 8 →
    let W := f.width.toNat
    let H := f.height.toNat
    let d := f.depth.toNat
    let y := b / (W * d / 8)
    let s := f.storedBit b k
    (∃ x e, x * d + e = 8 * (b % (W * d / 8)) + k ∧ e < d ∧ x < W ∧ y < H ∧
      (let x' := if f.mirror then W - 1 - x else x
      let (u, v) := match f.orientation with
        | .r0 => (x', y)
        | .r90 => (y, W - 1 - x')
        | .r180 => (W - 1 - x', H - 1 - y)
        | .r270 => (H - 1 - y, x')
      s = f.surfaceBase.toNat * 8 + v * f.pitch.toNat * 512 + u * d + e)) ∧
    (lineOfBit s).toNat = s / 512 * 64 ∧ posOfBit s = s % 512 ∧
    f.inverse (lineOfBit s) (posOfBit s) = some (b, k) ∧
    f.surfaceBase.toNat * 8 ≤ s ∧ s < f.surfaceEnd * 8 ∧
    (s - f.surfaceBase.toNat * 8) % (f.pitch.toNat * 512) < f.ws * f.bitsPerElement) ∧
  (∀ (f : Fields) (a : Addr) (beats : Nat), f.valid = true → f.viewBase.toNat ≤ a.toNat →
    a.toNat + 8 * beats ≤ f.viewEnd →
    let lines := f.footprint a beats
    (lines.map (·.toNat)).Pairwise (· < ·) ∧
    (∀ l, l ∈ lines ↔ ∃ j < 8 * beats, ∃ k < 8, l = lineOfBit (f.storedBit (a.toNat - f.viewBase.toNat + j) k)) ∧
    (1 ≤ beats → beats ≤ 16 → 1 ≤ lines.length ∧ lines.length ≤ 1024))

/-- Collecting a line of the surface by the inverse map (R120) gives the same buffer as collecting it by the forward map
(R34), for every range in the view window. -/
def Obligations.GatherMapsAgree : Prop :=
  ∀ (f : Fields) (b n : Nat) (line : Addr) (l : LineData) (buf : ReadBuffer), f.valid = true →
    f.viewBase.toNat + b + n ≤ f.viewEnd → n ≤ 128 → line.toNat % 64 = 0 →
    f.surfaceBase.toNat ≤ line.toNat → line.toNat < f.surfaceEnd →
    f.fillInverse b n line l buf = f.fillForward b n line l buf

/-- The aperture image of any fields reads back as those fields, so an image that GET_APERTURE returns can be staged
unchanged, and an EMPTY record's image is twenty bytes of 00h (R196, R198). -/
def Obligations.ApertureImageReadsBack : Prop :=
  (∀ f : Fields, f.image.length = 20 ∧ fieldsOfImage f.image = some f) ∧
  Aperture.cleared.fields.image = List.replicate 20 0 ∧
  ∀ im f, im.length = 20 → fieldsOfImage im = some f → f.image = im
end

