-- ==== Sys2Proof/Laws/Bits.lean ====
section
/-! SUPPORT. One bit of each vector that is built from a rule, and the big-endian numbers. -/

namespace Sys2Proof.Machine

/-! ### Vectors of bits -/

theorem bitsNat_lt (f : Nat → Bool) (n : Nat) : bitsNat f n < 2 ^ n := by
  induction n with
  | zero => simp [bitsNat]
  | succ n ih =>
    simp only [bitsNat, Nat.pow_succ]
    split <;> omega

theorem bitsNat_testBit (f : Nat → Bool) (n i : Nat) : (bitsNat f n).testBit i = (decide (i < n) && f i) := by
  induction n with
  | zero => simp [bitsNat]
  | succ n ih =>
    have key : bitsNat f (n + 1) = 2 ^ n * (if f n then 1 else 0) + bitsNat f n := by
      simp only [bitsNat]; split <;> omega
    rw [key, Nat.two_pow_add_eq_or_of_lt (bitsNat_lt f n), Nat.testBit_or, ih]
    have htop : (2 ^ n * (if f n then 1 else 0)).testBit i = (decide (i = n) && f n) := by
      split <;> rename_i hn
      · simp [hn, Nat.testBit_two_pow, eq_comm]
      · simp [hn]
    rw [htop]
    rcases Nat.lt_trichotomy i n with h | h | h
    · have : ¬ i = n := by omega
      simp [h, this, Nat.lt_succ_of_lt h]
    · subst h; simp
    · have h1 : ¬ i < n := by omega
      have h2 : ¬ i < n + 1 := by omega
      have h3 : ¬ i = n := by omega
      simp [h1, h2, h3]

@[simp] theorem bitsOf_getLsbD (w : Nat) (f : Nat → Bool) (i : Nat) :
    (bitsOf w f).getLsbD i = (decide (i < w) && f i) := by
  rw [bitsOf, BitVec.getLsbD_ofNat, bitsNat_testBit, ← Bool.and_assoc, Bool.and_self]

theorem bitSpan_getLsbD (pos n q : Nat) :
    (bitSpan pos n).getLsbD q = decide (q < 512 ∧ pos ≤ q ∧ q < pos + n) := by
  simp [bitSpan, Bool.decide_and]

theorem bitsAt_getLsbD (pos n value q : Nat) :
    (bitsAt pos n value).getLsbD q =
      (decide (q < 512 ∧ pos ≤ q ∧ q < pos + n) && value.testBit (q - pos)) := by
  simp [bitsAt, Bool.decide_and, Bool.and_assoc]

theorem bitsOfMask_getLsbD (m : ByteMask) (q : Nat) :
    (bitsOfMask m).getLsbD q = (decide (q < 512) && m.getLsbD (q / 8)) := by
  simp [bitsOfMask]

/-! ### Bytes of a line -/

theorem lineByte_getLsbD (l : LineData) (j q : Nat) :
    (lineByte l j).getLsbD q = (decide (q < 8) && l.getLsbD (8 * j + q)) := by
  simp [lineByte]

theorem lineByte_lineOf (f : Nat → Byte) (j : Nat) (h : j < 64) : lineByte (lineOf f) j = f j := by
  apply BitVec.eq_of_getLsbD_eq
  intro q hq
  have h1 : 8 * j + q < 512 := by omega
  have h2 : (8 * j + q) / 8 = j := by omega
  have h3 : (8 * j + q) % 8 = q := by omega
  rw [lineByte_getLsbD, lineOf, bitsOf_getLsbD, h2, h3]
  simp only [hq, h1, decide_true, Bool.true_and]

/-- A byte is wholly covered when each of its eight positions is (R89). -/
theorem wholeBytes_getLsbD (c : BitSet512) (j : Nat) (h : j < 64) :
    (wholeBytes c).getLsbD j = true ↔ ∀ q < 8, c.getLsbD (8 * j + q) = true := by
  simp only [wholeBytes, bitsOf_getLsbD, h, decide_true, Bool.true_and, beq_iff_eq]
  constructor
  · intro hb q hq
    have := congrArg (fun b : Byte => b.getLsbD q) hb
    simp only [lineByte_getLsbD, hq, decide_true, Bool.true_and] at this
    rw [this]
    interval_cases q <;> decide
  · intro hb
    apply BitVec.eq_of_getLsbD_eq
    intro q hq
    simp only [lineByte_getLsbD, hq, decide_true, Bool.true_and, hb q hq]
    interval_cases q <;> decide

/-- A byte is partly covered when one of its positions is covered and another is not (R89). -/
theorem partBytes_getLsbD (c : BitSet512) (j : Nat) (h : j < 64) :
    (partBytes c).getLsbD j = true ↔
      (∃ q < 8, c.getLsbD (8 * j + q) = true) ∧ ∃ q < 8, c.getLsbD (8 * j + q) = false := by
  have hw := wholeBytes_getLsbD c j h
  simp only [wholeBytes, bitsOf_getLsbD, h, decide_true, Bool.true_and, beq_iff_eq] at hw
  have hz : lineByte c j = 0#8 ↔ ∀ q < 8, c.getLsbD (8 * j + q) = false := by
    constructor
    · intro hb q hq
      have := congrArg (fun b : Byte => b.getLsbD q) hb
      simpa only [lineByte_getLsbD, hq, decide_true, Bool.true_and, BitVec.getLsbD_zero] using this
    · intro hb
      apply BitVec.eq_of_getLsbD_eq
      intro q hq
      rw [lineByte_getLsbD, hb q hq, Bool.and_false, BitVec.getLsbD_zero]
  simp only [partBytes, bitsOf_getLsbD, h, decide_true, Bool.true_and, Bool.and_eq_true, bne_iff_ne, ne_eq, hw, hz]
  constructor
  · rintro ⟨h1, h2⟩
    push Not at h1 h2
    obtain ⟨q, hq, hq'⟩ := h1
    obtain ⟨p, hp, hp'⟩ := h2
    exact ⟨⟨p, hp, by simpa using hp'⟩, ⟨q, hq, by simpa using hq'⟩⟩
  · rintro ⟨⟨p, hp, hp'⟩, ⟨q, hq, hq'⟩⟩
    exact ⟨fun hall => by simp [hall q hq] at hq', fun hall => by simp [hall p hp] at hp'⟩

/-! ### Ranges and numbers -/

/-- Two half-open ranges meet exactly when some number lies in both. -/
theorem rangesMeet_iff (a b c d : Nat) : rangesMeet a b c d = true ↔ ∃ x, (a ≤ x ∧ x < b) ∧ c ≤ x ∧ x < d := by
  simp only [rangesMeet, decide_eq_true_eq]
  constructor
  · intro h
    exact ⟨max a c, by omega⟩
  · rintro ⟨x, hx⟩
    omega

theorem rangesMeet_comm (a b c d : Nat) : rangesMeet a b c d = rangesMeet c d a b := by
  simp only [rangesMeet, Nat.max_comm a c, Nat.min_comm b d]

@[simp] theorem bytesOf_length (k n : Nat) : (bytesOf k n).length = k := by
  induction k with
  | zero => rfl
  | succ k ih => simp [bytesOf, ih]

/-- A number written as `k` bytes and read again is the number, modulo `256 ^ k`. -/
theorem numberOf_bytesOf (k n : Nat) : numberOf (bytesOf k n) = n % 256 ^ k := by
  have step : ∀ (m : Nat) (l : List Byte),
      l.foldl (fun x b => x * 256 + b.toNat) m = m * 256 ^ l.length + numberOf l := by
    intro m l
    induction l generalizing m with
    | nil => simp [numberOf]
    | cons b l ih =>
      simp only [numberOf, List.foldl_cons, List.length_cons, Nat.zero_mul, Nat.zero_add]
      rw [ih, ih b.toNat, Nat.pow_succ]
      ring
  induction k with
  | zero => simp [bytesOf, numberOf, Nat.mod_one]
  | succ k ih =>
    simp only [bytesOf, numberOf, List.foldl_cons, Nat.zero_mul, Nat.zero_add]
    rw [step, ih, bytesOf_length, BitVec.toNat_ofNat, show 256 ^ (k + 1) = 256 ^ k * 256 from rfl, Nat.mod_mul]
    ring

end Sys2Proof.Machine
end

