-- ==== Sys2Proof/Laws/Check.lean ====
section
/-! SUPPORT. The laws of Safety.lean as computed checks, so that a concrete state is shown to keep a law by evaluation. -/

namespace Sys2Proof.Machine

/-! ### Part control and settings -/

/-- State.PartLaw, computed. -/
def State.partCheck (s : State) : Bool :=
  (s.ready == decide (s.partState = .run)) && (decide (s.loader ≠ .idle) == decide (s.partState = .loading)) &&
    decide (s.session ≠ .closed → s.partState = .run) &&
    ((s.flash.selN == false) == ((match s.loader with | .reading _ => true | _ => false) || s.session == .selected)) &&
    decide (s.loader = .idle → s.session = .closed → s.flash = FlashPins.rest)

theorem State.partLaw_of_check (s : State) (h : s.partCheck = true) : s.PartLaw := by
  simp only [State.partCheck, Bool.and_eq_true, beq_iff_eq, decide_eq_true_eq] at h
  obtain ⟨⟨⟨⟨h1, h2⟩, h3⟩, h4⟩, h5⟩ := h
  refine ⟨by rw [h1]; simp, ?_, h3, ?_, h5⟩
  · constructor
    · intro h; simpa [h] using h2
    · intro h; simpa [h] using h2
  · rw [Bool.eq_iff_iff] at h4
    simp only [beq_iff_eq, Bool.or_eq_true] at h4
    rw [h4]
    cases s.loader <;> simp

/-- State.SettingsLaw for a loader that is at rest, computed. -/
def State.settingsCheck (s : State) : Bool :=
  decide (s.timing.ageLimit ≤ 4095) && decide (16 ≤ s.timing.discardLimit ∧ s.timing.discardLimit ≤ 65535) &&
    decide (1 ≤ s.timing.allowance ∧ s.timing.allowance ≤ 15) && decide (s.used ≤ 15) &&
    (match s.outcome with | .loaded n => decide (n ≤ 8) | _ => true) && decide (s.loader = .idle)

theorem State.settingsLaw_of_check (s : State) (h : s.settingsCheck = true) : s.SettingsLaw := by
  simp only [State.settingsCheck, Bool.and_eq_true, decide_eq_true_eq] at h
  obtain ⟨⟨⟨⟨⟨h1, h2⟩, h3⟩, h4⟩, h5⟩, h6⟩ := h
  refine ⟨h1, h2, h3, h4, ?_, by simp [h6], by simp [h6], by simp [h6]⟩
  intro n hn
  simpa [hn] using h5

/-! ### The aperture table and the intake -/

/-- State.TableLaw for a loader that is not INSTALLING, computed. -/
def State.tableCheck (s : State) : Bool :=
  (List.finRange 8).all (fun i =>
    decide ((s.aperture i).state = .empty → s.aperture i = Aperture.cleared) &&
    decide ((s.aperture i).state ≠ .empty → (s.aperture i).fields.valid = true) &&
    ((s.aperture i).drain.isSome == decide ((s.aperture i).state = .draining)) &&
    (List.finRange 8).all (fun j => decide (i ≠ j → (s.aperture i).state ≠ .empty → (s.aperture j).state ≠ .empty →
      (s.aperture i).fields.viewsOverlap (s.aperture j).fields = false ∧
        (s.aperture i).fields.surfacesOverlap (s.aperture j).fields = false)) &&
    decide (s.partState = .held ∨ s.partState = .loading → s.staging = none ∧ (s.aperture i).state = .empty)) &&
  decide (s.loader ≠ .idle → s.partState = .loading) &&
  (match s.loader with | .installing _ _ => false | _ => true)

theorem State.tableLaw_of_check (s : State) (h : s.tableCheck = true) : s.TableLaw := by
  simp only [State.tableCheck, Bool.and_eq_true, List.all_eq_true, List.mem_finRange, forall_true_left,
    decide_eq_true_eq, beq_iff_eq] at h
  obtain ⟨⟨h1, h2⟩, h3⟩ := h
  refine ⟨fun i => (h1 i).1.1.1.1, fun i => (h1 i).1.1.1.2, fun i => ?_, fun i j hij hi hj => (h1 i).1.2 j hij hi hj,
    fun hp => ⟨((h1 0).2 hp).1, fun i => ((h1 i).2 hp).2⟩, h2, fun hd rs hl => by simp [hl] at h3⟩
  rw [(h1 i).1.1.2]
  simp

/-- State.IntakeLaw, computed. -/
def State.intakeCheck (s : State) : Bool :=
  decide (s.intake.length ≤ 8) && decide ((s.intake.map (·.position)).Pairwise (· < ·)) &&
    s.intake.all (fun r => decide (1 ≤ r.position ∧ r.position ≤ s.acceptCount) && r.data.any (·.enabled)) &&
    (match s.intake.head? with | none => true | some r => decide (r.state = .scattering)) &&
    s.intake.tail.all (fun r => decide (r.state = .waiting)) &&
    decide (s.scatter.state = .idle ↔ s.intake = []) && decide (s.scatter.cursor.isSome = true ↔ s.intake ≠ [])

theorem State.intakeLaw_of_check (s : State) (h : s.intakeCheck = true) : s.IntakeLaw := by
  simp only [State.intakeCheck, Bool.and_eq_true, List.all_eq_true, decide_eq_true_eq, List.any_eq_true] at h
  obtain ⟨⟨⟨⟨⟨⟨h1, h2⟩, h3⟩, h4⟩, h5⟩, h6⟩, h7⟩ := h
  refine ⟨h1, h2, fun r hr => (h3 r hr).1, fun r hr => (h3 r hr).2, ?_, h5, h6, h7⟩
  intro r hr
  simpa [hr] using h4

/-! ### The combine store and the fence -/

/-- MERGING or WRITING, computed. -/
def SlotState.isFlushing (st : SlotState) : Bool := st == .merging || st == .writing

/-- OPEN or MERGING, computed. -/
def SlotState.isHolding (st : SlotState) : Bool := st == .opened || st == .merging

theorem SlotState.flushing_iff (st : SlotState) : st.flushing ↔ st.isFlushing = true := by
  simp [SlotState.flushing, SlotState.isFlushing]

theorem SlotState.holdsLine_iff (st : SlotState) : st.holdsLine ↔ st.isHolding = true := by
  simp [SlotState.holdsLine, SlotState.isHolding]

/-- State.SlotLaw, computed. -/
def State.slotCheck (s : State) : Bool :=
  decide s.openOrder.Nodup && decide s.flushOrder.Nodup &&
    (List.finRange 16).all (fun k =>
      decide (k ∈ s.openOrder ↔ (s.slot k).state = .opened) &&
      decide (k ∈ s.flushOrder ↔ (s.slot k).state.isFlushing = true) &&
      decide ((s.slot k).state = .free → s.slot k = Slot.cleared) &&
      decide ((s.slot k).state = .opened →
        (s.slot k).reason = .none ∧ (s.slot k).mask = 0#64 ∧ (s.slot k).request = .none) &&
      decide ((s.slot k).state.isFlushing = true → (s.slot k).request ≠ .none) &&
      (List.finRange 16).all (fun j => decide (j ≠ k → (s.slot j).state.isHolding = true →
        (s.slot k).state.isHolding = true → (s.slot j).line ≠ (s.slot k).line)) &&
      (match (s.slot k).request with
        | .outstanding t => decide (s.tag t = some ⟨.combine, (s.slot k).state.requestKind, (s.slot k).line, .slot k⟩)
        | _ => true)) &&
    s.intake.all (fun r => decide r.touched.Nodup && r.touched.all (fun k => decide ((s.slot k).state = .opened))) &&
    (List.finRange 8).all (fun t => match s.tag t with
      | some r => match r.owner with
        | .slot k => decide ((s.slot k).request = .outstanding t ∧ r.kind = (s.slot k).state.requestKind)
        | _ => true
      | none => true)

theorem State.slotLaw_of_check (s : State) (h : s.slotCheck = true) : s.SlotLaw := by
  simp only [State.slotCheck, Bool.and_eq_true, List.all_eq_true, List.mem_finRange, forall_true_left,
    decide_eq_true_eq] at h
  obtain ⟨⟨⟨⟨h1, h2⟩, h3⟩, h4⟩, h5⟩ := h
  refine ⟨h1, fun k => (h3 k).1.1.1.1.1.1, h2, fun k => ?_, fun k => (h3 k).1.1.1.1.2, fun k => (h3 k).1.1.1.2,
    fun k hk => (h3 k).1.1.2 ((SlotState.flushing_iff _).mp hk),
    fun j k hjk hj hk => (h3 k).1.2 j hjk ((SlotState.holdsLine_iff _).mp hj) ((SlotState.holdsLine_iff _).mp hk),
    fun r hr => ⟨(h4 r hr).1, (h4 r hr).2⟩, fun k t hk => ?_, fun t r k ht ho => ?_⟩
  · rw [SlotState.flushing_iff]
    exact (h3 k).1.1.1.1.1.2
  · have := (h3 k).2
    simpa [hk] using this
  · have := h5 t
    simpa [ht, ho] using this

/-- State.FenceLaw, computed. -/
def State.fenceCheck (s : State) : Bool :=
  (s.fence.prior.isSome == decide (s.fence.state = .pending)) &&
    decide (s.fence.state ≠ .pending → s.fence.fault = false) &&
    (List.finRange 16).all (fun k => decide (s.fence.state ≠ .pending → (s.slot k).mark = false))

theorem State.fenceLaw_of_check (s : State) (h : s.fenceCheck = true) : s.FenceLaw := by
  simp only [State.fenceCheck, Bool.and_eq_true, beq_iff_eq, List.all_eq_true, List.mem_finRange, forall_true_left,
    decide_eq_true_eq] at h
  obtain ⟨⟨h1, h2⟩, h3⟩ := h
  exact ⟨by rw [h1]; simp, h2, fun hp k => h3 k hp⟩

/-! ### The deferred read table and the forward queue -/

/-- State.entryIn, computed. -/
def State.isEntryIn (s : State) (p : PlaceIdx) (st : EntryState) : Bool :=
  match s.place p with
  | some e => e.state == st
  | none => false

theorem State.entryIn_iff (s : State) (p : PlaceIdx) (st : EntryState) : s.entryIn p st ↔ s.isEntryIn p st = true := by
  simp only [State.entryIn, State.isEntryIn]
  cases s.place p <;> simp

/-- Gather.gathers, computed. -/
def Gather.isGathering (g : Gather) (p : PlaceIdx) : Bool :=
  match g with
  | .priorWait q => q == p
  | .slotWait q _ => q == p
  | .reading q _ => q == p
  | _ => false

theorem Gather.gathers_iff (g : Gather) (p : PlaceIdx) : g.gathers p ↔ g.isGathering p = true := by
  cases g <;> simp [Gather.gathers, Gather.isGathering]

/-- Whether the engine is in CANCEL_WAIT for a place. -/
def Gather.isCancelling (g : Gather) (p : PlaceIdx) : Bool :=
  match g with
  | .cancelWait q _ => q == p
  | _ => false

theorem Gather.cancelling_iff (g : Gather) (p : PlaceIdx) :
    (∃ job, g = .cancelWait p job) ↔ g.isCancelling p = true := by
  cases g <;> simp [Gather.isCancelling]

/-- Whether the engine serves an immediate read. -/
def Gather.isImmediate (g : Gather) : Bool :=
  match g with
  | .immediate _ _ => true
  | _ => false

theorem Gather.immediate_iff (g : Gather) : (∃ job buffer, g = .immediate job buffer) ↔ g.isImmediate = true := by
  cases g <;> simp [Gather.isImmediate]

/-- What kind of read the port holds. -/
def PortState.heldAs (p : PortState) : Option HeldService :=
  match p with
  | .idle => none
  | .holding r => some r.service

theorem State.holdsImmediate_iff (s : State) :
    s.holdsImmediate ↔ (match s.port.heldAs with | some (.immediate _) => true | _ => false) = true := by
  simp only [State.holdsImmediate, PortState.heldAs]
  cases hp : s.port with
  | idle => simp
  | holding r => cases hr : r.service <;> simp [hr]

/-- State.DeferredLaw, computed. -/
def State.deferredCheck (s : State) : Bool :=
  (List.finRange 4).all (fun p => (List.finRange 4).all (fun q => match s.place p, s.place q with
      | some e, some d => decide (e.state ≠ .cancelled → d.state ≠ .cancelled → e.requester = d.requester →
          e.address = d.address → e.beats = d.beats → p = q)
      | _, _ => true) &&
    (decide (p ∈ s.queuedOrder) == s.isEntryIn p .queued) &&
    (s.isEntryIn p .gathering == s.gather.isGathering p) &&
    (s.isEntryIn p .cancelled == s.gather.isCancelling p) &&
    (match s.place p with
      | some e => e.expiry.isSome == decide (e.state = .ready ∨ e.state = .failed)
      | none => true)) &&
  decide s.queuedOrder.Nodup &&
  (!s.gather.isImmediate || (match s.port.heldAs with | some (.immediate _) => true | _ => false)) &&
  (!(match s.port.heldAs with | some (.immediate _) => true | _ => false) || s.gather.isImmediate ||
    (List.finRange 4).any (fun p => s.gather.isCancelling p)) &&
  decide s.gather.outstanding.Nodup && decide (s.gather.outstanding.length ≤ 4) &&
  (List.finRange 8).all (fun t => match s.tag t with
    | none => true
    | some r => match r.owner with
      | .place p => decide (t ∈ s.gather.outstanding) &&
          (match s.gather with | .reading q _ => q == p | .cancelWait q _ => q == p | _ => false)
      | .immediateRead => decide (t ∈ s.gather.outstanding) && s.gather.isImmediate
      | _ => true) &&
  s.gather.outstanding.all (fun t => match s.tag t with
    | none => false
    | some r => match r.owner with
      | .place _ => true
      | .immediateRead => true
      | _ => false) &&
  (match s.gather with | .cancelWait _ job => decide (job.outstanding ≠ []) | _ => true) &&
  decide (s.gather = .idle → s.queuedOrder = [])

theorem State.deferredLaw_of_check (s : State) (h : s.deferredCheck = true) : s.DeferredLaw := by
  simp only [State.deferredCheck, Bool.and_eq_true, List.all_eq_true, List.mem_finRange, forall_true_left,
    decide_eq_true_eq, beq_iff_eq, Bool.or_eq_true, Bool.not_eq_true', List.any_eq_true, true_and] at h
  obtain ⟨⟨⟨⟨⟨⟨⟨⟨⟨h1, h2⟩, h3⟩, h3'⟩, h4⟩, h5⟩, h6⟩, h7⟩, h8⟩, h9⟩ := h
  have himm : (∃ job buffer, s.gather = .immediate job buffer) → s.holdsImmediate := by
    rw [Gather.immediate_iff, State.holdsImmediate_iff]
    intro hi
    simpa [hi] using h3
  have hheld : s.holdsImmediate →
      (∃ job buffer, s.gather = .immediate job buffer) ∨ ∃ p job, s.gather = .cancelWait p job := by
    rw [Gather.immediate_iff, State.holdsImmediate_iff]
    intro hi
    rcases h3' with (h | h) | ⟨p, hp⟩
    · rw [h] at hi
      cases hi
    · exact Or.inl h
    · exact Or.inr ⟨p, (Gather.cancelling_iff _ _).mpr hp⟩
  refine ⟨?_, h2, fun p => ?_, fun p => ?_, fun p => ?_, fun p e he => ?_, himm, hheld, h4, h5,
    fun t r p ht ho => ?_, fun t r ht ho => ?_, fun t ht => ?_, fun p job hg => ?_, h9⟩
  · intro p q e d hp hq
    have := (h1 p).1.1.1.1 q
    simp only [hp, hq, decide_eq_true_eq] at this
    exact this
  · rw [State.entryIn_iff, ← (h1 p).1.1.1.2]
    simp
  · rw [State.entryIn_iff, Gather.gathers_iff, (h1 p).1.1.2]
  · rw [State.entryIn_iff, Gather.cancelling_iff, (h1 p).1.2]
  · have := (h1 p).2
    simp only [he, beq_iff_eq] at this
    rw [this]
    simp
  · have := h6 t
    simp only [ht, ho, Bool.and_eq_true, decide_eq_true_eq] at this
    refine ⟨this.1, ?_⟩
    cases hg : s.gather <;> simp_all
  · have := h6 t
    simp only [ht, ho, Bool.and_eq_true, decide_eq_true_eq] at this
    exact ⟨this.1, (Gather.immediate_iff _).mpr this.2⟩
  · have := h7 t ht
    cases hr : s.tag t with
    | none => simp [hr] at this
    | some r =>
      simp only [hr] at this
      refine ⟨r, rfl, ?_⟩
      cases ho : r.owner <;> simp_all
  · simpa [hg] using h8

/-- State.ForwardLaw, computed. -/
def State.forwardCheck (s : State) : Bool :=
  decide (s.forward.length ≤ 6) && s.forward.tail.all (fun e => decide (e.state = .behind)) &&
    (match s.forward.head? with | some e => decide (e.state ≠ .behind) | none => true) &&
    s.forward.dropLast.all (fun e => decide (e.kind = .write)) &&
    (s.forward.any (fun e => decide (e.kind = .read)) == decide (s.port.heldAs = some .passThrough)) &&
    (List.finRange 8).all (fun t => match s.tag t with
      | none => true
      | some r => decide (r.owner ≠ .readHead) || (match s.forward.head? with
        | none => false
        | some e => decide (e.kind = .read) && e.lines.any (fun l => decide (l.mark = .granted t))))

theorem State.forwardLaw_of_check (s : State) (h : s.forwardCheck = true) : s.ForwardLaw := by
  simp only [State.forwardCheck, Bool.and_eq_true, List.all_eq_true, List.mem_finRange, forall_true_left,
    decide_eq_true_eq, beq_iff_eq] at h
  obtain ⟨⟨⟨⟨⟨h1, h2⟩, h3⟩, h4⟩, h5⟩, h6⟩ := h
  refine ⟨h1, h2, fun e he => ?_, h4, ?_, fun t r ht ho => ?_⟩
  · simpa [he] using h3
  · have hl : (∃ e ∈ s.forward, e.kind = .read) ↔ s.forward.any (fun e => decide (e.kind = .read)) = true := by simp
    rw [hl, h5]
    simp only [PortState.heldAs, decide_eq_true_eq]
    cases hp : s.port <;> simp
  · have := h6 t
    simp only [ht, ho, ne_eq, not_true_eq_false, decide_false, Bool.false_or] at this
    cases hh : s.forward.head? with
    | none => simp [hh] at this
    | some e =>
      simp only [hh, Bool.and_eq_true, decide_eq_true_eq, List.any_eq_true] at this
      exact ⟨e, rfl, this.1, this.2⟩

end Sys2Proof.Machine
end

