-- ==== Sys2Proof/Laws/Ops.lean ====
section
/-! SUPPORT. What each shared operation can change: one frame lemma for each, which later proofs cite instead of unfolding
it, and the meaning of the searches over slots, places and apertures. -/

namespace Sys2Proof.Machine

/-! ### Searches -/

theorem find?_finRange_eq_some {n : Nat} (p : Fin n → Bool) (k : Fin n) :
    (List.finRange n).find? p = some k ↔ p k = true ∧ ∀ j < k, p j = false := by
  rw [List.find?_eq_some_iff_getElem]
  constructor
  · rintro ⟨h, i, hi, hik, hlt⟩
    simp only [List.getElem_finRange, Fin.cast_mk] at hik
    subst hik
    refine ⟨h, fun j hj => ?_⟩
    have := hlt j.val hj
    simpa using this
  · rintro ⟨h, hlt⟩
    refine ⟨h, k.val, by simp, by simp, fun j hj => ?_⟩
    have := hlt ⟨j, by omega⟩ hj
    simpa using this

theorem find?_finRange_eq_none {n : Nat} (p : Fin n → Bool) :
    (List.finRange n).find? p = none ↔ ∀ k, p k = false := by
  simp [List.find?_eq_none]

/-- The slots holding one of the lines (R82). -/
theorem State.mem_slotsHolding (s : State) (lines : List Addr) (k : SlotIdx) :
    k ∈ s.slotsHolding lines ↔ (s.slot k).state ≠ .free ∧ (s.slot k).line ∈ lines := by
  simp [State.slotsHolding]

theorem State.slotWith_eq_some (s : State) (st : SlotState) (line : Addr) (k : SlotIdx) (h : s.slotWith st line = some k) :
    (s.slot k).state = st ∧ (s.slot k).line = line := by
  have := ((find?_finRange_eq_some _ _).mp h).1
  simpa using this

theorem State.slotWith_eq_none (s : State) (st : SlotState) (line : Addr) :
    s.slotWith st line = none ↔ ∀ k, (s.slot k).state = st → (s.slot k).line ≠ line := by
  rw [State.slotWith, find?_finRange_eq_none]
  simp

/-- The lowest-numbered FREE slot (R69). -/
theorem State.firstFreeSlot_eq_some (s : State) (k : SlotIdx) :
    s.firstFreeSlot = some k ↔ (s.slot k).state = .free ∧ ∀ j < k, (s.slot j).state ≠ .free := by
  rw [State.firstFreeSlot, find?_finRange_eq_some]
  simp

theorem State.firstFreeSlot_eq_none (s : State) :
    s.firstFreeSlot = none ↔ ∀ k, (s.slot k).state ≠ .free := by
  rw [State.firstFreeSlot, find?_finRange_eq_none]
  simp

/-- The lowest-numbered free place (R109). -/
theorem State.firstFreePlace_eq_some (s : State) (p : PlaceIdx) :
    s.firstFreePlace = some p ↔ s.place p = none ∧ ∀ q < p, s.place q ≠ none := by
  rw [State.firstFreePlace, find?_finRange_eq_some]
  simp [← Option.isSome_iff_ne_none]

theorem State.firstFreePlace_eq_none (s : State) : s.firstFreePlace = none ↔ ∀ p, s.place p ≠ none := by
  rw [State.firstFreePlace, find?_finRange_eq_none]
  simp [← Option.isSome_iff_ne_none]

/-- The lowest-numbered FREE tag (R150). -/
theorem State.freeTag_eq_some (s : State) (t : Tag) :
    s.freeTag = some t ↔ s.tag t = none ∧ ∀ j < t, s.tag j ≠ none := by
  rw [State.freeTag, find?_finRange_eq_some]
  simp [← Option.isSome_iff_ne_none]

/-- No entry that is not CANCELLED has the key (R110). -/
theorem State.entryWith_eq_none (s : State) (r : Requester) (a : Addr) (beats : Nat) :
    s.entryWith r a beats = none ↔ ∀ p e, s.place p = some e → e.state ≠ .cancelled → e.requester = r →
      e.address = a → e.beats ≠ beats := by
  rw [State.entryWith, find?_finRange_eq_none]
  refine forall_congr' (fun p => ?_)
  cases s.place p <;> simp

theorem State.entryWith_eq_some (s : State) (r : Requester) (a : Addr) (beats : Nat) (p : PlaceIdx)
    (h : s.entryWith r a beats = some p) :
    ∃ e, s.place p = some e ∧ e.state ≠ .cancelled ∧ e.requester = r ∧ e.address = a ∧ e.beats = beats := by
  have := ((find?_finRange_eq_some _ _).mp h).1
  cases hp : s.place p with
  | none => simp [hp] at this
  | some e => exact ⟨e, rfl, by simpa [hp, and_assoc] using this⟩

/-! ### Closing slots -/

/-- Intake records that differ in their touched-slot lists alone. -/
theorem PriorSet.emptyIn_map_touched (ps : PriorSet) (l : List IntakeRecord) (f : IntakeRecord → List SlotIdx) :
    ps.emptyIn (l.map (fun r => { r with touched := f r })) = ps.emptyIn l := by
  simp [PriorSet.emptyIn, List.all_map, Function.comp_def, PriorSet.holds]

theorem PriorSet.emptyIn_iff (ps : PriorSet) (l : List IntakeRecord) :
    ps.emptyIn l = true ↔ ∀ r ∈ l, ps.holds r = false := by
  simp [PriorSet.emptyIn]

/-- Closing a slot changes the slots, the two lists and the touched-slot lists (R89). -/
theorem State.closeSlot_frame (s : State) (k : SlotIdx) (reason : FlushReason) :
    ∃ slots opens flushes, ∃ touched : IntakeRecord → List SlotIdx, s.closeSlot k reason = { s with
      slots := slots, openOrder := opens, flushOrder := flushes
      intake := s.intake.map (fun r => { r with touched := touched r }) } := by
  unfold State.closeSlot
  split
  · exact ⟨_, _, _, fun r => r.touched.erase k, rfl⟩
  · exact ⟨s.slots, s.openOrder, s.flushOrder, fun r => r.touched, by simp⟩

/-- A slot that is not OPEN does not close. -/
theorem State.closeSlot_of_ne (s : State) (k : SlotIdx) (reason : FlushReason) (h : (s.slot k).state ≠ .opened) :
    s.closeSlot k reason = s := by
  simp [State.closeSlot, h]

theorem State.closeSlot_slot_ne (s : State) (k j : SlotIdx) (reason : FlushReason) (h : k ≠ j) :
    (s.closeSlot k reason).slot j = s.slot j := by
  unfold State.closeSlot
  split
  · exact State.slot_setSlot_of_ne s k j _ h
  · rfl

theorem State.closeSlot_slot (s : State) (k : SlotIdx) (reason : FlushReason) (h : (s.slot k).state = .opened) :
    (s.closeSlot k reason).slot k = (s.slot k).closed reason (s.fenceCatches k) := by
  unfold State.closeSlot
  rw [if_pos h]
  exact (State.slot_setSlot s k k _).trans (if_pos rfl)

/-- A fold of closings changes the slots, the two lists and the touched-slot lists. -/
theorem State.foldl_closeSlot_frame (l : List (SlotIdx × FlushReason)) (s : State) :
    ∃ slots opens flushes, ∃ touched : IntakeRecord → List SlotIdx, l.foldl (fun t c => t.closeSlot c.1 c.2) s = { s with
      slots := slots, openOrder := opens, flushOrder := flushes
      intake := s.intake.map (fun r => { r with touched := touched r }) } := by
  induction l generalizing s with
  | nil => exact ⟨s.slots, s.openOrder, s.flushOrder, fun r => r.touched, by simp⟩
  | cons c l ih =>
    obtain ⟨a, b, d, f, h⟩ := s.closeSlot_frame c.1 c.2
    obtain ⟨a', b', d', f', h'⟩ := ih (s.closeSlot c.1 c.2)
    rw [List.foldl_cons, h', h]
    exact ⟨a', b', d', fun r => f' { r with touched := f r }, by simp [List.map_map, Function.comp_def]⟩

/-- What one event's closings can change (R87, R88). -/
theorem State.closeFor_frame (s : State) (causes : List Cause) :
    ∃ slots opens flushes, ∃ touched : IntakeRecord → List SlotIdx, s.closeFor causes = { s with
      slots := slots, openOrder := opens, flushOrder := flushes
      intake := s.intake.map (fun r => { r with touched := touched r }) } :=
  State.foldl_closeSlot_frame _ s

/-- With nothing named, nothing closes. -/
theorem State.closeFor_of_none (s : State) (causes : List Cause) (h : ∀ k ∈ s.openOrder, reasonFor causes k = none) :
    s.closeFor causes = s := by
  have : closings causes s.openOrder = [] := by
    simp only [closings, List.filterMap_eq_nil_iff, Option.map_eq_none_iff]
    exact h
  simp [State.closeFor, this]

theorem State.foldl_closeSlot_slot_of_not_mem (l : List (SlotIdx × FlushReason)) (s : State) (k : SlotIdx)
    (h : ∀ c ∈ l, c.1 ≠ k) : (l.foldl (fun t c => t.closeSlot c.1 c.2) s).slot k = s.slot k := by
  induction l generalizing s with
  | nil => rfl
  | cons c l ih =>
    rw [List.foldl_cons, ih _ (fun d hd => h d (List.mem_cons_of_mem _ hd)),
      State.closeSlot_slot_ne s c.1 k c.2 (h c List.mem_cons_self)]

/-- A slot that is not on the open-order list, or that no cause names, does not change. -/
theorem State.closeFor_slot_of_not_named (s : State) (causes : List Cause) (k : SlotIdx)
    (h : k ∉ s.openOrder ∨ reasonFor causes k = none) : (s.closeFor causes).slot k = s.slot k := by
  refine State.foldl_closeSlot_slot_of_not_mem _ s k (fun c hc hk => ?_)
  simp only [closings, List.mem_filterMap, Option.map_eq_some_iff] at hc
  obtain ⟨j, hj, r, hr, he⟩ := hc
  subst he
  subst hk
  rcases h with h | h
  · exact h hj
  · simp [h] at hr

/-! ### Freeing and marking -/

/-- A freed slot holds the FREE values (R94). -/
@[simp] theorem State.freeSlot_slot (s : State) (k : SlotIdx) : (s.freeSlot k).slot k = Slot.cleared :=
  (State.slot_setSlot s k k _).trans (if_pos rfl)

theorem State.freeSlot_slot_ne (s : State) (k j : SlotIdx) (h : k ≠ j) : (s.freeSlot k).slot j = s.slot j :=
  State.slot_setSlot_of_ne s k j _ h

/-- Fence-marking changes the slots alone (R96, R98). -/
theorem State.markSlots_frame (l : List SlotIdx) (s : State) :
    ∃ slots, s.markSlots l = { s with slots := slots } := by
  induction l generalizing s with
  | nil => exact ⟨s.slots, rfl⟩
  | cons k l ih =>
    obtain ⟨a, h⟩ := ih (s.setSlot k { s.slot k with mark := true })
    exact ⟨a, by rw [State.markSlots, List.foldl_cons]; exact h⟩

/-- A slot after fence-marking (R96, R98). -/
theorem State.markSlots_slot (l : List SlotIdx) (s : State) (k : SlotIdx) :
    (s.markSlots l).slot k = if k ∈ l then { s.slot k with mark := true } else s.slot k := by
  induction l generalizing s with
  | nil => rfl
  | cons j l ih =>
    rw [State.markSlots, List.foldl_cons]
    refine (ih _).trans ?_
    by_cases hj : j = k
    · subst hj
      simp
    · have hk : ¬ k = j := fun h => hj h.symm
      rw [State.slot_setSlot_of_ne s j k _ hj]
      simp [hk]

/-! ### The forward queue's head, the gather engine, the fence, drains -/

/-- The guard's progress changes the head of the forward queue alone (R136, R137). -/
theorem State.guardProgress_frame (s : State) :
    ∃ queue, s.guardProgress.1 = { s with forward := queue } ∧ queue.tail = s.forward.tail := by
  unfold State.guardProgress
  split
  · rename_i h; exact ⟨s.forward, rfl, rfl⟩
  · rename_i e rest h; exact ⟨_, rfl, by rw [h]; rfl⟩

theorem State.gatherServe_frame (s : State) (p : PlaceIdx) (e : Entry) :
    ∃ g, (s.gatherServe p e).1 = { s with gather := g } := by
  unfold State.gatherServe State.gatherSnapshot
  split <;> exact ⟨_, rfl⟩

/-- The gather engine's progress changes the engine and the table (R118, R119). -/
theorem State.gatherProgress_frame (s : State) :
    ∃ g order places, s.gatherProgress.1 = { s with gather := g, queuedOrder := order, places := places } := by
  have same : ∃ g order places, s = { s with gather := g, queuedOrder := order, places := places } := ⟨_, _, _, rfl⟩
  unfold State.gatherProgress
  repeat' split
  · exact same
  · exact ⟨_, _, _, rfl⟩
  · rename_i p rest _ _ e _
    obtain ⟨g, h⟩ := State.gatherServe_frame
      ({ s with queuedOrder := rest }.setPlace p (some { e with state := .gathering })) p e
    exact ⟨g, _, _, h⟩
  · exact same
  · obtain ⟨g, h⟩ := State.gatherServe_frame s _ _
    exact ⟨g, _, _, h⟩
  · exact same
  · exact ⟨_, _, _, rfl⟩
  · exact same
  · exact same
  · exact same
  · exact same

/-- The fence's test changes the fence alone (R101). -/
theorem State.fenceTest_frame (s : State) : ∃ f, s.fenceTest = { s with fence := f } := by
  unfold State.fenceTest
  split
  · exact ⟨_, rfl⟩
  · exact ⟨s.fence, rfl⟩

theorem State.drainTest_frame (s : State) (i : ApertureIdx) : ∃ a, s.drainTest i = { s with apertures := a } := by
  unfold State.drainTest
  split
  · exact ⟨_, rfl⟩
  · exact ⟨s.apertures, rfl⟩

theorem State.foldl_drainTest_frame (l : List ApertureIdx) (s : State) :
    ∃ a, l.foldl State.drainTest s = { s with apertures := a } := by
  induction l generalizing s with
  | nil => exact ⟨s.apertures, rfl⟩
  | cons i l ih =>
    obtain ⟨a, h⟩ := s.drainTest_frame i
    obtain ⟨b, h'⟩ := ih (s.drainTest i)
    exact ⟨b, by rw [List.foldl_cons, h', h]⟩

/-- The drain tests change the aperture table alone (R19). -/
theorem State.drainTests_frame (s : State) : ∃ a, s.drainTests = { s with apertures := a } :=
  State.foldl_drainTest_frame _ s

/-- Whether an aperture is drained depends on no other aperture. -/
theorem State.drained_congr (s : State) (a : Vector Aperture 8) (i : ApertureIdx) (h : a[i] = s.apertures[i]) :
    ({ s with apertures := a } : State).drained i = s.drained i := by
  simp only [State.drained, State.aperture, State.slot, State.place, h]

theorem State.foldl_drainTest_aperture (l : List ApertureIdx) (s : State) (hl : l.Nodup) (i : ApertureIdx) :
    (l.foldl State.drainTest s).aperture i =
      if i ∈ l ∧ s.drained i = true then Aperture.cleared else s.aperture i := by
  induction l generalizing s with
  | nil => simp
  | cons j l ih =>
    rw [List.foldl_cons, ih _ (List.nodup_cons.mp hl).2]
    have hj := (List.nodup_cons.mp hl).1
    by_cases hij : i = j
    · subst hij
      simp only [hj, false_and, if_false, List.mem_cons, true_or, true_and, State.drainTest]
      split <;> simp
    · have hd : (s.drainTest j).aperture i = s.aperture i ∧ (s.drainTest j).drained i = s.drained i := by
        unfold State.drainTest
        split
        · have hne : (s.setAperture j Aperture.cleared).aperture i = s.aperture i :=
            State.aperture_setAperture_of_ne s j i _ (fun h => hij h.symm)
          exact ⟨hne, State.drained_congr s _ i hne⟩
        · exact ⟨rfl, rfl⟩
      rw [hd.1, hd.2]
      simp [hij]

/-- Every aperture whose drain condition holds becomes EMPTY, and the others stay (R19). -/
theorem State.drainTests_aperture (s : State) (i : ApertureIdx) :
    s.drainTests.aperture i = if s.drained i = true then Aperture.cleared else s.aperture i := by
  rw [State.drainTests, State.foldl_drainTest_aperture _ s (List.nodup_finRange 8)]
  simp

/-! ### The end of an event -/

theorem State.quiesceTest_of_ne (s : State) (h : s.partState ≠ .quiescing) : s.quiesceTest = s := by
  simp [State.quiesceTest, h]

/-- What entering LOADING changes (R181). -/
theorem State.enterLoading_frame (s : State) :
    ∃ clk more, s.enterLoading = { s with
      partState := .loading, loader := .reading none, flash := ⟨false, clk, false⟩
      trace := .flashShift flashReadCommand :: (more ++ s.trace), freeCount := s.freeCount + 2 } := by
  cases h : s.flash.selN
  · exact ⟨Config.linkLevel s.freeCount, [], by simp [State.enterLoading, State.flashSelect, State.flashClocked, h]⟩
  · exact ⟨Config.linkLevel s.freeCount, [.flashSelect false], by
      simp [State.enterLoading, State.flashSelect, State.flashClocked, h]⟩

/-- What the end of QUIESCING changes (R193). -/
theorem State.endQuiescing_frame (s : State) :
    ∃ clk more, s.endQuiescing = { s with
      apertures := Vector.replicate 8 Aperture.cleared, staging := none, timing := Timing.default
      partState := .loading, loader := .reading none, flash := ⟨false, clk, false⟩
      trace := .flashShift flashReadCommand :: (more ++ s.trace), freeCount := s.freeCount + 2 } :=
  State.enterLoading_frame _

theorem State.settle_eq (s : State) (causes : List Cause) :
    s.settle causes = (s.guardProgress.1.gatherProgress.1.closeFor (causes ++
      [⟨.restart, s.guardProgress.1.gatherProgress.1.restartDemand⟩, ⟨.guard, s.guardProgress.2⟩,
        ⟨.gather, s.guardProgress.1.gatherProgress.2⟩])).fenceTest.drainTests.quiesceTest := rfl

/-- The part of settling before the test of QUIESCING changes the combine store's records, the deferred read table, the
forward queue's head, the fence, and the apertures that have drained. -/
theorem State.settle_parts (s : State) (causes : List Cause) :
    ∃ slots opens flushes, ∃ touched : IntakeRecord → List SlotIdx, ∃ order places g queue f a,
      s.settle causes = State.quiesceTest { s with
        slots := slots, openOrder := opens, flushOrder := flushes
        intake := s.intake.map (fun r => { r with touched := touched r })
        queuedOrder := order, places := places, gather := g, forward := queue, fence := f, apertures := a } ∧
      queue.tail = s.forward.tail := by
  obtain ⟨queue, h1, hq⟩ := s.guardProgress_frame
  obtain ⟨g, order, places, h2⟩ := State.gatherProgress_frame s.guardProgress.1
  obtain ⟨cs, hcs⟩ : ∃ cs, cs = causes ++
      [⟨.restart, s.guardProgress.1.gatherProgress.1.restartDemand⟩, ⟨.guard, s.guardProgress.2⟩,
        ⟨.gather, s.guardProgress.1.gatherProgress.2⟩] := ⟨_, rfl⟩
  rw [State.settle_eq, ← hcs]
  obtain ⟨slots, opens, flushes, touched, h3⟩ := State.closeFor_frame s.guardProgress.1.gatherProgress.1 cs
  obtain ⟨f, h4⟩ := State.fenceTest_frame (s.guardProgress.1.gatherProgress.1.closeFor cs)
  obtain ⟨a, h5⟩ := State.drainTests_frame (s.guardProgress.1.gatherProgress.1.closeFor cs).fenceTest
  exact ⟨slots, opens, flushes, touched, order, places, g, queue, f, a, by rw [h5, h4, h3, h2, h1], hq⟩

/-- What settling can change outside QUIESCING. -/
theorem State.settle_frame (s : State) (causes : List Cause) (h : s.partState ≠ .quiescing) :
    ∃ slots opens flushes, ∃ touched : IntakeRecord → List SlotIdx, ∃ order places g queue f a,
      s.settle causes = { s with
        slots := slots, openOrder := opens, flushOrder := flushes
        intake := s.intake.map (fun r => { r with touched := touched r })
        queuedOrder := order, places := places, gather := g, forward := queue, fence := f, apertures := a } ∧
      queue.tail = s.forward.tail := by
  obtain ⟨slots, opens, flushes, touched, order, places, g, queue, f, a, h1, h2⟩ := s.settle_parts causes
  exact ⟨slots, opens, flushes, touched, order, places, g, queue, f, a,
    by rw [h1]; exact State.quiesceTest_of_ne _ h, h2⟩

/-- What no settling changes, whatever the part state. -/
theorem State.settle_keeps (s : State) (causes : List Cause) :
    (s.settle causes).pending = s.pending ∧ (s.settle causes).now = s.now ∧ (s.settle causes).ready = s.ready ∧
    (s.settle causes).outcome = s.outcome ∧ (s.settle causes).session = s.session ∧
    (s.settle causes).port = s.port ∧ (s.settle causes).acceptCount = s.acceptCount ∧
    (s.settle causes).scatter = s.scatter ∧ (s.settle causes).posted = s.posted ∧
    (s.settle causes).tags = s.tags ∧ (s.settle causes).holder = s.holder ∧ (s.settle causes).used = s.used ∧
    (s.settle causes).events = s.events ∧ (s.settle causes).receiver = s.receiver := by
  obtain ⟨slots, opens, flushes, touched, order, places, g, queue, f, a, h1, h2⟩ := s.settle_parts causes
  rw [h1]
  unfold State.quiesceTest
  split
  · rename_i hq
    obtain ⟨clk, more, he⟩ := State.endQuiescing_frame { s with
        slots := slots, openOrder := opens, flushOrder := flushes
        intake := s.intake.map (fun r => { r with touched := touched r })
        queuedOrder := order, places := places, gather := g, forward := queue, fence := f, apertures := a }
    rw [he]
    simp
  · simp

/-! ### Placing -/

/-- A record's departure changes the slots, the intake and the engine (R63, R98). -/
theorem State.recordLeaves_frame (s : State) (r : IntakeRecord) (rest : List IntakeRecord) :
    ∃ slots records engine, (s.recordLeaves r rest).1 = { s with
      slots := slots, intake := records, scatter := engine } := by
  unfold State.recordLeaves
  cases rest with
  | nil =>
    obtain ⟨slots, h⟩ := State.markSlots_frame (if s.fence.waitsFor r then r.touched else [])
      { s with intake := [], scatter := ⟨.idle, none⟩ }
    exact ⟨slots, _, _, h⟩
  | cons n more =>
    obtain ⟨slots, h⟩ := State.markSlots_frame (if s.fence.waitsFor r then r.touched else [])
      { s with intake := { n with state := .scattering } :: more, scatter := ⟨.placing, firstCursor n.data⟩ }
    exact ⟨slots, _, _, h⟩

/-- What placing one element into a slot can change (R68, R83, R84). -/
theorem State.placeInto_frame (s : State) (r : IntakeRecord) (rest : List IntakeRecord) (c : Cursor) (k : SlotIdx) :
    ∃ slots records engine, (s.placeInto r rest c k).state = { s with
      slots := slots, intake := records, scatter := engine } := by
  unfold State.placeInto
  dsimp only
  split
  · exact ⟨_, _, _, rfl⟩
  · obtain ⟨slots, records, engine, h⟩ := State.recordLeaves_frame
      (s.setSlot k ((s.slot k).placed (placementAt (s.aperture r.aperture).fields r c))) (r.touch k) rest
    exact ⟨slots, records, engine, h⟩

/-- What one step of the scatter engine can change (R68). -/
theorem State.scatterStep_frame (s : State) :
    ∃ slots opens records engine, s.scatterStep.state = { s with
      slots := slots, openOrder := opens, intake := records, scatter := engine } := by
  unfold State.scatterStep
  split
  · rename_i r rest c _ _
    dsimp only
    split
    · rename_i k _
      obtain ⟨slots, records, engine, h⟩ := s.placeInto_frame r rest c k
      exact ⟨slots, _, records, engine, h⟩
    · split
      · exact ⟨_, _, _, _, rfl⟩
      · split
        · rename_i k _
          obtain ⟨slots, records, engine, h⟩ := (s.openSlot k
            (placementAt (s.aperture r.aperture).fields r c).line r.aperture).placeInto_frame r rest c k
          exact ⟨slots, _, records, engine, h⟩
        · exact ⟨_, _, _, _, rfl⟩
  · exact ⟨_, _, _, _, rfl⟩

/-! ### The deferred read table and time -/

/-- Cancelling an entry changes the table and the engine (R127). -/
theorem State.cancelEntry_frame (s : State) (p : PlaceIdx) :
    ∃ places order g, s.cancelEntry p = { s with places := places, queuedOrder := order, gather := g } := by
  unfold State.cancelEntry
  repeat' split
  all_goals exact ⟨_, _, _, rfl⟩

theorem State.foldl_table_frame {α : Type} (f : State → α → State)
    (hf : ∀ t x, ∃ places order g, f t x = { t with places := places, queuedOrder := order, gather := g })
    (l : List α) (s : State) :
    ∃ places order g, l.foldl f s = { s with places := places, queuedOrder := order, gather := g } := by
  induction l generalizing s with
  | nil => exact ⟨_, _, _, rfl⟩
  | cons x l ih =>
    obtain ⟨a, b, c, h⟩ := hf s x
    obtain ⟨a', b', c', h'⟩ := ih (f s x)
    exact ⟨a', b', c', by rw [List.foldl_cons, h', h]⟩

/-- What cancelling entries can change (R127). -/
theorem State.cancelEntries_frame (s : State) (which : Entry → Bool) :
    ∃ places order g, s.cancelEntries which = { s with places := places, queuedOrder := order, gather := g } := by
  refine State.foldl_table_frame _ (fun t p => ?_) _ s
  repeat' split
  · exact ⟨_, _, _, rfl⟩
  · exact t.cancelEntry_frame p
  · exact ⟨_, _, _, rfl⟩

/-- Discarding entries changes the table and the event unit (R126). -/
theorem State.foldl_discardEntry_frame (l : List PlaceIdx) (s : State) :
    ∃ places order ev, l.foldl State.discardEntry s = { s with places := places, queuedOrder := order, events := ev } := by
  induction l generalizing s with
  | nil => exact ⟨_, _, _, rfl⟩
  | cons p l ih =>
    have step : ∃ places order ev, s.discardEntry p =
        { s with places := places, queuedOrder := order, events := ev } := by
      unfold State.discardEntry
      split <;> exact ⟨_, _, _, rfl⟩
    obtain ⟨a, b, c, h⟩ := step
    obtain ⟨a', b', c', h'⟩ := ih (s.discardEntry p)
    exact ⟨a', b', c', by rw [List.foldl_cons, h', h]⟩

/-- What the passage of time can change (R85, R126). -/
theorem State.passTime_frame (s : State) (t : Nat) :
    ∃ slots opens flushes, ∃ touched : IntakeRecord → List SlotIdx, ∃ places order ev a, s.passTime t = { s with
      now := t
      slots := slots, openOrder := opens, flushOrder := flushes
      intake := s.intake.map (fun r => { r with touched := touched r })
      places := places, queuedOrder := order, events := ev, apertures := a } := by
  obtain ⟨slots, opens, flushes, touched, h1⟩ := State.closeFor_frame { s with now := t }
    [⟨.age, { s with now := t }.agedBy t⟩]
  obtain ⟨places, order, ev, h2⟩ := State.foldl_discardEntry_frame
    (({ s with now := t }.closeFor [⟨.age, { s with now := t }.agedBy t⟩]).expiredBy t)
    ({ s with now := t }.closeFor [⟨.age, { s with now := t }.agedBy t⟩])
  obtain ⟨a, h3⟩ := State.drainTests_frame ((({ s with now := t }.closeFor
    [⟨.age, { s with now := t }.agedBy t⟩]).expiredBy t).foldl State.discardEntry
      ({ s with now := t }.closeFor [⟨.age, { s with now := t }.agedBy t⟩]))
  refine ⟨slots, opens, flushes, touched, places, order, ev, a, ?_⟩
  show State.drainTests _ = _
  rw [h3, h2, h1]

end Sys2Proof.Machine
end

