-- ==== Sys2Proof/Laws/Link.lean ====
section
/-! SUPPORT. What taking a frame does, condition by condition, and the row of each command code. -/

namespace Sys2Proof.Machine

/-! ### The command table -/

@[simp] theorem commandRow_codeGetStatus :
    commandRow codeGetStatus = some ⟨codeGetStatus, 0, 0, true⟩ := rfl
@[simp] theorem commandRow_codeGetAperture :
    commandRow codeGetAperture = some ⟨codeGetAperture, 1, 1, false⟩ := rfl
@[simp] theorem commandRow_codeGetEvents :
    commandRow codeGetEvents = some ⟨codeGetEvents, 0, 0, true⟩ := rfl
@[simp] theorem commandRow_codeDumpSlots :
    commandRow codeDumpSlots = some ⟨codeDumpSlots, 0, 0, true⟩ := rfl
@[simp] theorem commandRow_codeDumpDeferred :
    commandRow codeDumpDeferred = some ⟨codeDumpDeferred, 0, 0, true⟩ := rfl
@[simp] theorem commandRow_codeStage :
    commandRow codeStage = some ⟨codeStage, 20, 20, false⟩ := rfl
@[simp] theorem commandRow_codeCommit :
    commandRow codeCommit = some ⟨codeCommit, 1, 1, false⟩ := rfl
@[simp] theorem commandRow_codeSuspend :
    commandRow codeSuspend = some ⟨codeSuspend, 1, 1, false⟩ := rfl
@[simp] theorem commandRow_codeResume :
    commandRow codeResume = some ⟨codeResume, 1, 1, false⟩ := rfl
@[simp] theorem commandRow_codeRetire :
    commandRow codeRetire = some ⟨codeRetire, 1, 1, false⟩ := rfl
@[simp] theorem commandRow_codeFence :
    commandRow codeFence = some ⟨codeFence, 0, 0, false⟩ := rfl
@[simp] theorem commandRow_codeClearEvents :
    commandRow codeClearEvents = some ⟨codeClearEvents, 1, 1, true⟩ := rfl
@[simp] theorem commandRow_codeSetTiming :
    commandRow codeSetTiming = some ⟨codeSetTiming, 5, 5, false⟩ := rfl
@[simp] theorem commandRow_codeSetAttention :
    commandRow codeSetAttention = some ⟨codeSetAttention, 1, 1, false⟩ := rfl
@[simp] theorem commandRow_codeFlashOpen :
    commandRow codeFlashOpen = some ⟨codeFlashOpen, 0, 0, false⟩ := rfl
@[simp] theorem commandRow_codeFlashXfer :
    commandRow codeFlashXfer = some ⟨codeFlashXfer, 2, 33, false⟩ := rfl
@[simp] theorem commandRow_codeFlashClose :
    commandRow codeFlashClose = some ⟨codeFlashClose, 0, 0, false⟩ := rfl
@[simp] theorem commandRow_codeRestart :
    commandRow codeRestart = some ⟨codeRestart, 0, 0, false⟩ := rfl

/-! ### Taking a frame (R160 to R162) -/

/-- A frame taken in RECEIVING leaves what its outcome leaves, with the response fixed. -/
theorem State.takeFrame_receiving (s : State) (code : Byte) (f : Frame) (d : Decider)
    (h : s.receiver.phase = .receiving) :
    s.takeFrame code f d = { (s.frameOutcome code f d).2 with
      receiver := { s.receiver with
        phase := .responding (s.frameOutcome code f d).1.response, kept := keptOf code f } } := by
  simp [State.takeFrame, h]

/-- A frame whose check byte does not match is answered BAD_CHECK and changes nothing else. -/
theorem State.takeFrame_badCheck (s : State) (code : Byte) (f : Frame) (d : Decider)
    (h : s.receiver.phase = .receiving) (hc : f.check ≠ frameCheck code f.args) :
    s.takeFrame code f d = s.responding code f .badCheck := by
  simp [State.takeFrame_receiving s code f d h, State.frameOutcome, hc, State.responding]

/-- A frame whose code is in no row of the table is answered UNKNOWN and changes nothing else. -/
theorem State.takeFrame_unknown (s : State) (code : Byte) (f : Frame) (d : Decider) (h : s.FrameArrives code f)
    (hr : commandRow code = none) : s.takeFrame code f d = s.responding code f .unknown := by
  simp [State.takeFrame_receiving s code f d h.1, State.frameOutcome, h.2, hr, State.responding]

/-- A frame whose length its row does not allow is answered LENGTH and changes nothing else. -/
theorem State.takeFrame_length (s : State) (code : Byte) (f : Frame) (d : Decider) (row : CommandRow)
    (h : s.FrameArrives code f) (hr : commandRow code = some row)
    (hl : f.args.length < row.minL ∨ row.maxL < f.args.length) :
    s.takeFrame code f d = s.responding code f .length := by
  simp [State.takeFrame_receiving s code f d h.1, State.frameOutcome, h.2, hr, hl, State.responding]

/-- A frame that its row does not take in the part state is answered BUSY and changes nothing else. -/
theorem State.takeFrame_busy (s : State) (code : Byte) (f : Frame) (d : Decider) (row : CommandRow)
    (h : s.FrameArrives code f) (hr : commandRow code = some row) (hmin : row.minL ≤ f.args.length)
    (hmax : f.args.length ≤ row.maxL) (ha : row.anyState = false) (hs : s.partState ≠ .run) :
    s.takeFrame code f d = s.responding code f .busy := by
  have hl : ¬ (f.args.length < row.minL ∨ row.maxL < f.args.length) := by omega
  simp [State.takeFrame_receiving s code f d h.1, State.frameOutcome, h.2, hr, hl, ha, hs, State.responding]

/-- A frame that is taken is decided by its command, which leaves the receiver to the taking. -/
theorem State.takeFrame_taken (s : State) (code : Byte) (f : Frame) (d : Decider) (row : CommandRow)
    (h : s.FrameArrives code f) (hr : commandRow code = some row) (hmin : row.minL ≤ f.args.length)
    (hmax : f.args.length ≤ row.maxL) (ha : row.anyState = true ∨ s.partState = .run)
    (hk : (d f.args s).2.receiver = s.receiver) :
    s.takeFrame code f d = (d f.args s).2.responding code f (d f.args s).1 := by
  have hl : ¬ (f.args.length < row.minL ∨ row.maxL < f.args.length) := by omega
  have hb : ¬ (row.anyState = false ∧ s.partState ≠ .run) := by
    rintro ⟨h1, h2⟩
    rcases ha with h3 | h3
    · simp [h1] at h3
    · exact h2 h3
  have ho : s.frameOutcome code f d = d f.args s := by
    unfold State.frameOutcome
    rw [if_neg (not_not_intro h.2), hr]
    dsimp only
    rw [if_neg hl, if_neg hb]
  rw [State.takeFrame_receiving s code f d h.1, ho, State.responding, hk]

/-- In another state of the receiver no check byte arrives, and nothing changes (log 2). -/
theorem State.takeFrame_of_ne (s : State) (code : Byte) (f : Frame) (d : Decider)
    (h : s.receiver.phase ≠ .receiving) : s.takeFrame code f d = s := by
  unfold State.takeFrame
  split
  · rename_i hr; exact absurd hr h
  · rfl
  · rfl
  · rfl

@[simp] theorem State.responding_receiver (s : State) (code : Byte) (f : Frame) (r : Result) :
    (s.responding code f r).receiver = { s.receiver with phase := .responding r.response, kept := keptOf code f } := rfl

/-! ### Argument bytes -/

theorem byteAt_singleton (b : Byte) : byteAt [b] 0 = b := rfl

theorem indexOf_eq_none (b : Byte) : indexOf b = none ↔ 7 < b.toNat := by
  unfold indexOf
  split <;> simp <;> omega

theorem indexOf_eq_some (b : Byte) (i : ApertureIdx) : indexOf b = some i ↔ i.val = b.toNat := by
  unfold indexOf
  split
  · rename_i h
    simp only [Option.some.injEq, Fin.ext_iff]
    omega
  · rename_i h
    simp only [reduceCtorEq, false_iff]
    omega

end Sys2Proof.Machine
end

