-- ==== Sys2Proof/Laws/MemoryPort.lean ====
section
/-! SUPPORT. What a grant and a completion come to, by the arbiter's choice and by the owner of the tag. -/

namespace Sys2Proof.Machine

/-! ### GRANT (R154) -/

/-- With a choice made, the granted source's request goes out under the lowest FREE tag. -/
theorem execGrant_of_choice (s : State) (src : Source) (used : Nat) (g : Tag) (hc : s.choice = some (src, used))
    (hg : s.freeTag = some g) : execGrant s = .next ({ s with holder := src, used := used }.issue src g) := by
  simp only [execGrant, hc, hg]

/-- With no source requesting, nothing changes. -/
theorem execGrant_of_none (s : State) (hc : s.choice = none) : execGrant s = .next s := by
  simp only [execGrant, hc]

theorem State.issue_forward (s : State) (g : Tag) (e : ForwardEntry) (rest : List ForwardEntry) (l : ForwardLine)
    (hf : s.forward = e :: rest) (ho : s.forwardOffer = some l) : s.issue .forward g = s.issueForward g e rest l := by
  simp only [State.issue]
  split
  · rename_i e' rest' l' hf' ho'
    rw [hf] at hf'
    rw [ho] at ho'
    cases hf'
    cases ho'
    rfl
  · rename_i hn
    exact absurd ho (hn e rest l hf)

theorem State.issue_combine (s : State) (g : Tag) (k : SlotIdx) (ho : s.combineOffer = some k) :
    s.issue .combine g = s.issueCombine g k := by
  simp only [State.issue, ho]

theorem State.issue_gather (s : State) (g : Tag) (line : Addr) (ho : s.gatherOffer = some line) :
    s.issue .gather g = s.issueGather g line := by
  simp only [State.issue, ho]

/-! ### Completions (R151, R152) -/

/-- A completion whose tag is FREE is ignored by every row. -/
theorem State.complete_of_free (s : State) (c : Completion) (h : s.tag c.tag = none) : s.complete c = s := by
  simp [State.complete, h]

theorem State.complete_readHead (s : State) (c : Completion) (r : TagRecord) (h : s.tag c.tag = some r)
    (ho : r.owner = .readHead) : s.complete c = (s.setTag c.tag none).completeForwardRead c r := by
  simp [State.complete, h, ho]

theorem State.complete_outstandingWrite (s : State) (c : Completion) (r : TagRecord) (h : s.tag c.tag = some r)
    (ho : r.owner = .outstandingWrite) : s.complete c = (s.setTag c.tag none).completePosted c r := by
  simp [State.complete, h, ho]

theorem State.complete_slotRead (s : State) (c : Completion) (r : TagRecord) (k : SlotIdx) (h : s.tag c.tag = some r)
    (ho : r.owner = .slot k) (hk : r.kind = .read) : s.complete c = (s.setTag c.tag none).completeMerge k c := by
  simp [State.complete, h, ho, hk]

theorem State.complete_slotWrite (s : State) (c : Completion) (r : TagRecord) (k : SlotIdx) (h : s.tag c.tag = some r)
    (ho : r.owner = .slot k) (hk : r.kind = .write) : s.complete c = (s.setTag c.tag none).completeWrite k c := by
  simp [State.complete, h, ho, hk]

theorem State.complete_immediateRead (s : State) (c : Completion) (r : TagRecord) (h : s.tag c.tag = some r)
    (ho : r.owner = .immediateRead) : s.complete c = (s.setTag c.tag none).completeImmediate c r := by
  simp [State.complete, h, ho]

theorem State.complete_place (s : State) (c : Completion) (r : TagRecord) (p : PlaceIdx) (h : s.tag c.tag = some r)
    (ho : r.owner = .place p) : s.complete c = (s.setTag c.tag none).completeEntry p c r := by
  simp [State.complete, h, ho]

/-- A fault raises its event; either way nothing but the event unit changes. -/
theorem State.raiseOn_frame (s : State) (o : MemOutcome) (k : EventKind) (i : Option ApertureIdx) (a : Addr)
    (q : Option Requester) : ∃ ev, s.raiseOn o k i a q = { s with events := ev } := by
  cases o
  · exact ⟨s.events, rfl⟩
  · exact ⟨_, rfl⟩

theorem State.noteFault_frame (s : State) (x : Slot) : ∃ f, s.noteFault x = { s with fence := f } := by
  unfold State.noteFault
  split
  · exact ⟨_, rfl⟩
  · exact ⟨s.fence, rfl⟩

/-! ### A placement that neither fills the slot nor ends the record -/

/-- A FULL cause that names no slot closes nothing. -/
theorem reasonFor_full_nil (k : SlotIdx) : reasonFor [⟨.full, []⟩] k = none := by
  simp [reasonFor, reasonOrder, namedFor]

theorem reasonFor_nil (k : SlotIdx) : reasonFor [] k = none := by
  simp [reasonFor, reasonOrder, namedFor]

end Sys2Proof.Machine
end

