-- ==== Sys2Proof/Laws/Settle.lean ====
section
/-! SUPPORT. What closing, settling, the passage of time and the departure of a record leave, said exactly: later proofs
cite these and unfold none of the operations. -/

namespace Sys2Proof.Machine

/-! ### Which slots close, and why (R87, R88, R99) -/

theorem Slot.closed_flushing (x : Slot) (reason : FlushReason) (marked : Bool) :
    (x.closed reason marked).state.flushing := by
  unfold Slot.closed
  dsimp only
  split <;> simp [SlotState.flushing]

theorem namedFor_iff (causes : List Cause) (k : SlotIdx) (r : FlushReason) :
    namedFor causes k r = true ↔ ∃ c ∈ causes, c.reason = r ∧ k ∈ c.slots := by
  simp [namedFor]

/-- A slot has a reason exactly when a cause names it. -/
theorem reasonFor_isSome (causes : List Cause) (k : SlotIdx) :
    (reasonFor causes k).isSome = causes.any (fun c => c.reason != FlushReason.none && c.slots.contains k) := by
  rw [Bool.eq_iff_iff, List.any_eq_true]
  simp only [reasonFor, List.find?_isSome, namedFor_iff]
  constructor
  · rintro ⟨r, hr, c, hc, rfl, hk⟩
    have h : c.reason ≠ .none := fun h => by simp [h, reasonOrder] at hr
    exact ⟨c, hc, by simp [h, hk]⟩
  · rintro ⟨c, hc, h⟩
    simp only [Bool.and_eq_true, bne_iff_ne, ne_eq, List.contains_iff_mem] at h
    refine ⟨c.reason, ?_, c, hc, rfl, h.2⟩
    have hr := h.1
    revert hr
    cases c.reason <;> simp [reasonOrder]

/-- The recorded reason is the first of R88's order for which a cause names the slot. -/
theorem reasonFor_some (causes : List Cause) (k : SlotIdx) (r : FlushReason) (h : reasonFor causes k = some r) :
    ∃ n : Nat, reasonOrder[n]? = some r ∧ (∃ c ∈ causes, c.reason = r ∧ k ∈ c.slots) ∧
      ∀ m < n, ∀ q, reasonOrder[m]? = some q → ¬ ∃ c ∈ causes, c.reason = q ∧ k ∈ c.slots := by
  rw [reasonFor, List.find?_eq_some_iff_getElem] at h
  obtain ⟨h1, n, hn, h2, h3⟩ := h
  refine ⟨n, by rw [List.getElem?_eq_getElem hn, h2], (namedFor_iff _ _ _).mp h1, fun m hm q hq hex => ?_⟩
  obtain ⟨hlt, rfl⟩ := List.getElem?_eq_some_iff.mp hq
  simpa [(namedFor_iff _ _ _).mpr hex] using h3 m hm

/-- The slots that close, in open order. -/
theorem closings_keys (causes : List Cause) (order : List SlotIdx) :
    (closings causes order).map (·.1) = order.filter (fun k => (reasonFor causes k).isSome) := by
  induction order with
  | nil => rfl
  | cons k o ih =>
    unfold closings at *
    rw [List.filterMap_cons, List.filter_cons]
    cases h : reasonFor causes k <;> simp [ih]

/-- When closing fence-marks a slot (R99). -/
theorem State.fenceCatches_iff (s : State) (k : SlotIdx) :
    s.fenceCatches k = true ↔ ∃ r rest ps, s.intake = r :: rest ∧ r.state = .scattering ∧ s.fence.state = .pending ∧
      s.fence.prior = some ps ∧ ps.holds r = true ∧ k ∈ r.touched := by
  unfold State.fenceCatches State.scattering Fence.waitsFor
  cases hi : s.intake with
  | nil => simp
  | cons a l =>
    by_cases hs : a.state = .scattering
    · cases hp : s.fence.prior with
      | none => simp [hs]
      | some ps =>
        simp only [hs, if_true, Bool.and_eq_true, beq_iff_eq, List.contains_iff_mem]
        constructor
        · rintro ⟨⟨h1, h2⟩, h3⟩
          exact ⟨a, l, ps, rfl, hs, h1, rfl, h2, h3⟩
        · rintro ⟨r, rest, ps', h, hr, h1, h2, h3, h4⟩
          cases h
          cases h2
          exact ⟨⟨h1, h3⟩, h4⟩
    · simp only [hs, if_false]
      constructor
      · intro h
        simp at h
      · rintro ⟨r, rest, ps', h, hr, _⟩
        cases h
        exact absurd hr hs

/-! ### What closing leaves (R89) -/

theorem State.closeSlot_opened (s : State) (k : SlotIdx) (r : FlushReason) (h : (s.slot k).state = .opened) :
    s.closeSlot k r = { s with
      slots := s.slots.set k ((s.slot k).closed r (s.fenceCatches k))
      openOrder := s.openOrder.erase k
      flushOrder := s.flushOrder ++ [k]
      intake := s.intake.map (fun r => r.untouch k) } := by
  unfold State.closeSlot
  rw [if_pos h]
  rfl

/-- Closing one slot changes the fence mark that closing another would set on none. -/
theorem State.fenceCatches_closeSlot (s : State) (k j : SlotIdx) (r : FlushReason) (h : k ≠ j) :
    (s.closeSlot k r).fenceCatches j = s.fenceCatches j := by
  by_cases ho : (s.slot k).state = .opened
  · rw [State.closeSlot_opened s k r ho]
    simp only [State.fenceCatches, State.scattering]
    cases hi : s.intake with
    | nil => rfl
    | cons a l =>
      simp only [List.map_cons, IntakeRecord.untouch]
      by_cases hs : a.state = .scattering
      · simp only [hs, if_true]
        congr 1
        rw [Bool.eq_iff_iff, List.contains_iff_mem, List.contains_iff_mem]
        exact List.mem_erase_of_ne (Ne.symm h)
      · simp [hs]
  · rw [State.closeSlot_of_ne s k r ho]

/-- Taking a slot and then others from a list without repetition takes them all. -/
theorem erase_filter (m l : List SlotIdx) (k : SlotIdx) (hm : m.Nodup) :
    (m.erase k).filter (fun j => !l.contains j) = m.filter (fun j => !(k :: l).contains j) := by
  rw [hm.erase_eq_filter, List.filter_filter]
  refine List.filter_congr (fun x _ => ?_)
  rw [Bool.eq_iff_iff]
  simp [and_comm]

/-- What closing distinct OPEN slots leaves. -/
theorem State.foldl_closeSlot_exact (l : List (SlotIdx × FlushReason)) (s : State) (hn : (l.map (·.1)).Nodup)
    (ho : ∀ c ∈ l, (s.slot c.1).state = .opened) (hs : s.openOrder.Nodup)
    (ht : ∀ r ∈ s.intake, r.touched.Nodup) :
    let t := l.foldl (fun t c => t.closeSlot c.1 c.2) s
    let gone := fun k => (l.map (·.1)).contains k
    (∀ c ∈ l, t.slot c.1 = (s.slot c.1).closed c.2 (s.fenceCatches c.1)) ∧
    t = { s with
      slots := t.slots
      openOrder := s.openOrder.filter (fun k => !gone k)
      flushOrder := s.flushOrder ++ l.map (·.1)
      intake := s.intake.map (fun r => { r with touched := r.touched.filter (fun k => !gone k) }) } := by
  induction l generalizing s with
  | nil => simp
  | cons c l ih =>
    obtain ⟨hc, hl⟩ := List.nodup_cons.mp hn
    have hne : ∀ d ∈ l, c.1 ≠ d.1 := fun d hd he => hc (by
      show c.1 ∈ _
      rw [he]
      exact List.mem_map_of_mem hd)
    have h1 := State.closeSlot_opened s c.1 c.2 (ho c List.mem_cons_self)
    obtain ⟨ia, ib⟩ := ih (s.closeSlot c.1 c.2) hl
      (fun d hd => by
        rw [State.closeSlot_slot_ne s c.1 d.1 c.2 (hne d hd)]
        exact ho d (List.mem_cons_of_mem _ hd))
      (by rw [h1]; exact hs.erase _)
      (by
        rw [h1]
        intro r hr
        obtain ⟨r', hr', rfl⟩ := List.mem_map.mp hr
        exact (ht r' hr').erase _)
    rw [List.foldl_cons]
    intro t gone
    refine ⟨fun d hd => ?_, ?_⟩
    · rcases List.mem_cons.mp hd with rfl | hd
      · rw [← State.closeSlot_slot s d.1 d.2 (ho d List.mem_cons_self)]
        exact State.foldl_closeSlot_slot_of_not_mem l _ d.1 (fun e he h => hne e he h.symm)
      · rw [← State.closeSlot_slot_ne s c.1 d.1 c.2 (hne d hd),
          ← State.fenceCatches_closeSlot s c.1 d.1 c.2 (hne d hd)]
        exact ia d hd
    · have touchedLists : (s.intake.map (fun r => r.untouch c.1)).map
          (fun r => { r with touched := r.touched.filter (fun k => !(l.map (·.1)).contains k) }) =
            s.intake.map (fun r => { r with touched := r.touched.filter (fun k => !gone k) }) := by
        rw [List.map_map]
        refine List.map_congr_left (fun r hr => ?_)
        show ({ r with touched := (r.touched.erase c.1).filter _ } : IntakeRecord) = _
        rw [erase_filter r.touched _ c.1 (ht r hr)]
        rfl
      have rest : ∀ sl o f i,
          ({ s.closeSlot c.1 c.2 with slots := sl, openOrder := o, flushOrder := f, intake := i } : State) =
            { s with slots := sl, openOrder := o, flushOrder := f, intake := i } := by
        rw [h1]
        intros
        rfl
      have opens : (s.closeSlot c.1 c.2).openOrder = s.openOrder.erase c.1 := by rw [h1]
      have flushes : (s.closeSlot c.1 c.2).flushOrder = s.flushOrder ++ [c.1] := by rw [h1]
      have records : (s.closeSlot c.1 c.2).intake = s.intake.map (fun r => r.untouch c.1) := by rw [h1]
      refine ib.trans ?_
      rw [rest, opens, flushes, records, erase_filter _ _ _ hs, touchedLists, List.append_assoc]
      rfl

/-- What one event's closings leave (R87 to R89, R99). -/
theorem State.closeFor_exact (s : State) (causes : List Cause) (hL : s.SlotLaw) :
    let t := s.closeFor causes
    let named := fun k : SlotIdx => causes.any (fun c => c.reason != FlushReason.none && c.slots.contains k)
    (∀ k r, k ∈ s.openOrder → reasonFor causes k = some r → t.slot k = (s.slot k).closed r (s.fenceCatches k)) ∧
    t = { s with
      slots := t.slots
      openOrder := s.openOrder.filter (fun k => !named k)
      flushOrder := s.flushOrder ++ s.openOrder.filter named
      intake := s.intake.map (fun r => { r with touched := r.touched.filter (fun k => !named k) }) } := by
  have keys := closings_keys causes s.openOrder
  have opened : ∀ c ∈ closings causes s.openOrder, (s.slot c.1).state = .opened := by
    intro c hc
    have hm : c.1 ∈ (closings causes s.openOrder).map (·.1) := List.mem_map_of_mem hc
    rw [keys] at hm
    exact (hL.openList _).mp (List.mem_filter.mp hm).1
  obtain ⟨ka, kb⟩ := State.foldl_closeSlot_exact (closings causes s.openOrder) s
    (by rw [keys]; exact hL.openOnce.filter _) opened hL.openOnce (fun r hr => (hL.touched r hr).1)
  intro t named
  refine ⟨fun k r hk hr => ka (k, r) ?_, kb.trans ?_⟩
  · simp only [closings, List.mem_filterMap]
    exact ⟨k, hk, by rw [hr]; rfl⟩
  · have isNamed : (fun k => (reasonFor causes k).isSome) = named := funext (reasonFor_isSome causes)
    rw [keys, isNamed]
    have among : ∀ m : List SlotIdx, (∀ k ∈ m, k ∈ s.openOrder) →
        m.filter (fun k => !(s.openOrder.filter named).contains k) = m.filter (fun k => !named k) := by
      intro m hm
      refine List.filter_congr (fun x hx => ?_)
      rw [Bool.eq_iff_iff]
      simp [hm x hx]
    rw [among _ (fun _ h => h)]
    refine congrArg (fun i => ({ s with slots := _, openOrder := _, flushOrder := _, intake := i } : State)) ?_
    refine List.map_congr_left (fun r hr => ?_)
    rw [among r.touched (fun k hk => (hL.openList k).mpr ((hL.touched r hr).2 k hk))]

/-! ### The guard's and the gather engine's snapshots (R119, R137) -/

/-- A guarded head whose prior set is empty asks for the slots holding a line it touches. -/
theorem State.guardProgress_snapshot (s : State) (e : ForwardEntry) (ps : PriorSet) (hf : s.forward.head? = some e)
    (he : e.state = .behind ∨ e.state = .guardPrior) (hp : e.prior = some ps)
    (hi : ∀ r ∈ s.intake, ps.holds r = false) :
    s.guardProgress.2 = s.slotsHolding (linesOfRange e.address e.beats) := by
  have hq := (PriorSet.emptyIn_iff ps s.intake).mpr hi
  unfold State.guardProgress
  cases h : s.forward with
  | nil => simp [h] at hf
  | cons d rest =>
    simp only [h, List.head?_cons, Option.some.injEq] at hf
    subst hf
    rcases he with he | he <;> simp [State.headStep, he, hp, hq]

/-- In any other case the head asks for none. -/
theorem State.guardProgress_nothing (s : State)
    (h : ∀ e ps, s.forward.head? = some e → e.state = .behind ∨ e.state = .guardPrior → e.prior = some ps →
      ¬ ∀ r ∈ s.intake, ps.holds r = false) : s.guardProgress.2 = [] := by
  unfold State.guardProgress
  cases hf : s.forward with
  | nil => rfl
  | cons e rest =>
    have h0 : s.forward.head? = some e := by rw [hf]; rfl
    have waiting : ∀ ps, e.state = .behind ∨ e.state = .guardPrior → e.prior = some ps → ps.emptyIn s.intake = false :=
      fun ps he hp => by
        rw [Bool.eq_false_iff, ne_eq, PriorSet.emptyIn_iff]
        exact h e ps h0 he hp
    dsimp only
    unfold State.headStep
    cases he : e.state <;> cases hp : e.prior <;> dsimp only
    · rw [waiting _ (Or.inl he) hp]
      rfl
    · rw [waiting _ (Or.inr he) hp]
      rfl
    all_goals split <;> rfl

theorem State.gatherServe_of_empty (s : State) (p : PlaceIdx) (e : Entry) (h : e.prior.emptyIn s.intake = true) :
    s.gatherServe p e = s.gatherSnapshot p e := if_pos h

theorem State.gatherServe_of_waiting (s : State) (p : PlaceIdx) (e : Entry) (h : ¬ e.prior.emptyIn s.intake = true) :
    s.gatherServe p e = ({ s with gather := .priorWait p }, []) := if_neg h

/-- What each state of the engine does at the end of an event. -/
theorem State.gatherProgress_takes (s : State) (p : PlaceIdx) (rest : List PlaceIdx) (e : Entry) (hg : s.gather = .idle)
    (ho : s.queuedOrder = p :: rest) (hp : s.place p = some e) :
    s.gatherProgress =
      (State.setPlace { s with queuedOrder := rest } p (some { e with state := .gathering })).gatherServe p e := by
  simp only [State.gatherProgress, hg, ho, hp]

theorem State.gatherProgress_priorWait (s : State) (p : PlaceIdx) (e : Entry) (hg : s.gather = .priorWait p)
    (hp : s.place p = some e) : s.gatherProgress = s.gatherServe p e := by
  simp only [State.gatherProgress, hg, hp]

theorem State.gatherProgress_slotWait (s : State) (p : PlaceIdx) (snapshot : List SlotIdx) (e : Entry)
    (hg : s.gather = .slotWait p snapshot) (hp : s.place p = some e) :
    s.gatherProgress = if snapshot.isEmpty
      then ({ s with gather := .reading p (ReadJob.start (s.entryFootprint e)) }, []) else (s, []) := by
  simp only [State.gatherProgress, hg, hp]

/-- Without an entry in the place, which no state of a run has, the engine does nothing for it. -/
theorem State.gatherProgress_gone (s : State) (p : PlaceIdx) (rest : List PlaceIdx) (hg : s.gather = .idle)
    (ho : s.queuedOrder = p :: rest) (hp : s.place p = none) :
    s.gatherProgress = ({ s with queuedOrder := rest }, []) := by
  simp only [State.gatherProgress, hg, ho, hp]

theorem State.gatherProgress_lost (s : State) (p : PlaceIdx)
    (hg : s.gather = .priorWait p ∨ ∃ snapshot, s.gather = .slotWait p snapshot) (hp : s.place p = none) :
    s.gatherProgress = (s, []) := by
  rcases hg with hg | ⟨snapshot, hg⟩ <;> simp only [State.gatherProgress, hg, hp]

/-- The engine's progress does not depend on the forward queue. -/
theorem State.gatherServe_forward (s : State) (queue : List ForwardEntry) (p : PlaceIdx) (e : Entry) :
    ({ s with forward := queue } : State).gatherServe p e =
      ({ (s.gatherServe p e).1 with forward := queue }, (s.gatherServe p e).2) := by
  by_cases h : e.prior.emptyIn s.intake = true
  · rw [State.gatherServe_of_empty s p e h]
    exact State.gatherServe_of_empty _ p e h
  · rw [State.gatherServe_of_waiting s p e h]
    exact State.gatherServe_of_waiting _ p e h

theorem State.gatherProgress_forward (s : State) (queue : List ForwardEntry) :
    ({ s with forward := queue } : State).gatherProgress =
      ({ s.gatherProgress.1 with forward := queue }, s.gatherProgress.2) := by
  obtain ⟨g, hg⟩ : ∃ g, s.gather = g := ⟨_, rfl⟩
  cases g with
  | idle =>
    obtain ⟨order, ho⟩ : ∃ order, s.queuedOrder = order := ⟨_, rfl⟩
    cases order with
    | nil => simp only [State.gatherProgress, hg, ho]
    | cons p rest =>
      rcases hp : s.place p with _ | e
      · rw [State.gatherProgress_gone s p rest hg ho hp]
        exact State.gatherProgress_gone { s with forward := queue } p rest hg ho hp
      · rw [State.gatherProgress_takes s p rest e hg ho hp]
        refine (State.gatherProgress_takes { s with forward := queue } p rest e hg ho hp).trans ?_
        exact State.gatherServe_forward
          (State.setPlace { s with queuedOrder := rest } p (some { e with state := .gathering })) queue p e
  | priorWait p =>
    rcases hp : s.place p with _ | e
    · rw [State.gatherProgress_lost s p (Or.inl hg) hp]
      exact State.gatherProgress_lost { s with forward := queue } p (Or.inl hg) hp
    · rw [State.gatherProgress_priorWait s p e hg hp]
      exact (State.gatherProgress_priorWait { s with forward := queue } p e hg hp).trans
        (State.gatherServe_forward s queue p e)
  | slotWait p snapshot =>
    rcases hp : s.place p with _ | e
    · rw [State.gatherProgress_lost s p (Or.inr ⟨snapshot, hg⟩) hp]
      exact State.gatherProgress_lost { s with forward := queue } p (Or.inr ⟨snapshot, hg⟩) hp
    · rw [State.gatherProgress_slotWait s p snapshot e hg hp]
      refine (State.gatherProgress_slotWait { s with forward := queue } p snapshot e hg hp).trans ?_
      cases snapshot <;> rfl
  | reading p job => simp only [State.gatherProgress, hg]
  | cancelWait p job => simp only [State.gatherProgress, hg]
  | immediate job buffer => simp only [State.gatherProgress, hg]

/-! ### What settling leaves -/

/-- Closing neither reads nor writes the deferred read table, the gather engine and the forward queue. -/
theorem State.closeSlot_congr (s : State) (order : List PlaceIdx) (places : Vector (Option Entry) 4) (g : Gather)
    (queue : List ForwardEntry) (k : SlotIdx) (r : FlushReason) :
    ({ s with queuedOrder := order, places := places, gather := g, forward := queue } : State).closeSlot k r =
      { s.closeSlot k r with queuedOrder := order, places := places, gather := g, forward := queue } := by
  by_cases h : (s.slot k).state = .opened
  · rw [State.closeSlot_opened s k r h]
    exact State.closeSlot_opened _ k r h
  · rw [State.closeSlot_of_ne s k r h]
    exact State.closeSlot_of_ne _ k r h

theorem State.foldl_closeSlot_congr (l : List (SlotIdx × FlushReason)) (s : State) (order : List PlaceIdx)
    (places : Vector (Option Entry) 4) (g : Gather) (queue : List ForwardEntry) :
    l.foldl (fun t c => t.closeSlot c.1 c.2)
        ({ s with queuedOrder := order, places := places, gather := g, forward := queue } : State) =
      { l.foldl (fun t c => t.closeSlot c.1 c.2) s with
        queuedOrder := order, places := places, gather := g, forward := queue } := by
  induction l generalizing s with
  | nil => rfl
  | cons c l ih => rw [List.foldl_cons, List.foldl_cons, State.closeSlot_congr, ih]

theorem State.closeFor_congr (s : State) (order : List PlaceIdx) (places : Vector (Option Entry) 4) (g : Gather)
    (queue : List ForwardEntry) (causes : List Cause) :
    ({ s with queuedOrder := order, places := places, gather := g, forward := queue } : State).closeFor causes =
      { s.closeFor causes with queuedOrder := order, places := places, gather := g, forward := queue } :=
  State.foldl_closeSlot_congr _ s order places g queue

/-- What the test of QUIESCING leaves, whatever it finds. -/
theorem State.quiesceTest_keeps (s : State) :
    s.quiesceTest.slots = s.slots ∧ s.quiesceTest.openOrder = s.openOrder ∧ s.quiesceTest.flushOrder = s.flushOrder ∧
    s.quiesceTest.intake = s.intake ∧ s.quiesceTest.fence = s.fence ∧ s.quiesceTest.forward = s.forward ∧
    s.quiesceTest.gather = s.gather ∧ s.quiesceTest.places = s.places ∧
    s.quiesceTest.queuedOrder = s.queuedOrder := by
  unfold State.quiesceTest
  split
  · obtain ⟨clk, more, h⟩ := s.endQuiescing_frame
    rw [h]
    simp
  · simp

/-- Every cause that closes slots at the end of an event: the event's own, the RESTART demand (R105), and the snapshots
of the head (R137) and of the gather engine (R119). -/
def State.endCauses (s : State) (causes : List Cause) : List Cause :=
  causes ++ [⟨.restart, s.restartDemand⟩, ⟨.guard, s.guardProgress.2⟩, ⟨.gather, s.gatherProgress.2⟩]

/-- Settling, field by field: the combine store closes what `endCauses` names, and the head and the gather engine take
their step. -/
theorem State.settle_fields (s : State) (causes : List Cause) :
    let u := s.closeFor (s.endCauses causes)
    let t := s.settle causes
    t.slots = u.slots ∧ t.openOrder = u.openOrder ∧ t.flushOrder = u.flushOrder ∧ t.intake = u.intake ∧
    t.forward = s.guardProgress.1.forward ∧ t.gather = s.gatherProgress.1.gather ∧
    t.places = s.gatherProgress.1.places ∧ t.queuedOrder = s.gatherProgress.1.queuedOrder := by
  obtain ⟨queue, h1, -⟩ := s.guardProgress_frame
  obtain ⟨g, order, places, h2⟩ := s.gatherProgress_frame
  have hp := s.gatherProgress_forward queue
  have h3 : s.guardProgress.1.gatherProgress.1 =
      { s with queuedOrder := order, places := places, gather := g, forward := queue } := by rw [h1, hp, h2]
  have h4 : s.guardProgress.1.gatherProgress.2 = s.gatherProgress.2 := by rw [h1, hp]
  have h5 : State.restartDemand { s with queuedOrder := order, places := places, gather := g, forward := queue } =
      s.restartDemand := rfl
  have named : causes ++ [⟨.restart, s.restartDemand⟩, ⟨.guard, s.guardProgress.2⟩, ⟨.gather, s.gatherProgress.2⟩] =
      s.endCauses causes := rfl
  dsimp only
  rw [State.settle_eq, h3, h4, h5, named, State.closeFor_congr]
  generalize s.endCauses causes = cs
  generalize s.closeFor cs = u
  obtain ⟨f, h6⟩ := State.fenceTest_frame
    { u with queuedOrder := order, places := places, gather := g, forward := queue }
  rw [h6]
  obtain ⟨a, h7⟩ := State.drainTests_frame
    { u with queuedOrder := order, places := places, gather := g, forward := queue, fence := f }
  rw [h7]
  obtain ⟨q1, q2, q3, q4, -, q6, q7, q8, q9⟩ := State.quiesceTest_keeps
    { u with queuedOrder := order, places := places, gather := g, forward := queue, fence := f, apertures := a }
  exact ⟨q1, q2, q3, q4, by rw [q6, h1], by rw [q7, h2], by rw [q8, h2], by rw [q9, h2]⟩

/-! ### The tests at the end of an event (R19, R101, R192) -/

theorem State.drained_iff (s : State) (i : ApertureIdx) :
    s.drained i = true ↔ (s.aperture i).state = .draining ∧
      (∀ ps, (s.aperture i).drain = some ps → ∀ r ∈ s.intake, ps.holds r = false) ∧
      (∀ k, (s.slot k).state ≠ .free → (s.slot k).aperture ≠ i) ∧
      (∀ p e, s.place p = some e → e.aperture ≠ i) ∧
      ∀ h, s.port = .holding h → h.service ≠ .immediate i := by
  have prior : (match (s.aperture i).drain with | none => true | some ps => ps.emptyIn s.intake) = true ↔
      ∀ ps, (s.aperture i).drain = some ps → ∀ r ∈ s.intake, ps.holds r = false := by
    cases (s.aperture i).drain <;> simp [PriorSet.emptyIn_iff]
  have slots : (List.finRange 16).all (fun k => (s.slot k).state == .free || (s.slot k).aperture != i) = true ↔
      ∀ k, (s.slot k).state ≠ .free → (s.slot k).aperture ≠ i := by
    simp only [List.all_eq_true, List.mem_finRange, true_implies, Bool.or_eq_true, beq_iff_eq, bne_iff_ne]
    exact forall_congr' fun k => by tauto
  have entries : (List.finRange 4).all (fun p => match s.place p with | none => true | some e => e.aperture != i) =
      true ↔ ∀ p e, s.place p = some e → e.aperture ≠ i := by
    simp only [List.all_eq_true, List.mem_finRange, true_implies]
    exact forall_congr' fun p => by cases s.place p <;> simp
  have held : (!s.port.holdsImmediateOf i) = true ↔ ∀ h, s.port = .holding h → h.service ≠ .immediate i := by
    cases s.port with
    | idle => simp [PortState.holdsImmediateOf]
    | holding r => cases hs : r.service <;> simp [PortState.holdsImmediateOf, hs]
  unfold State.drained
  simp only [Bool.and_eq_true, slots, held, beq_iff_eq, and_assoc]
  exact and_congr Iff.rfl (and_congr prior (and_congr Iff.rfl (and_congr entries Iff.rfl)))

theorem State.fenceComplete_iff (s : State) :
    s.fenceComplete = true ↔ s.fence.state = .pending ∧
      (∀ ps, s.fence.prior = some ps → ∀ r ∈ s.intake, ps.holds r = false) ∧ ∀ k, (s.slot k).mark = false := by
  have prior : (match s.fence.prior with | none => true | some ps => ps.emptyIn s.intake) = true ↔
      ∀ ps, s.fence.prior = some ps → ∀ r ∈ s.intake, ps.holds r = false := by
    cases s.fence.prior <;> simp [PriorSet.emptyIn_iff]
  unfold State.fenceComplete
  simp only [Bool.and_eq_true, beq_iff_eq, and_assoc, List.all_eq_true, List.mem_finRange, true_implies,
    Bool.not_eq_true']
  exact and_congr Iff.rfl (and_congr prior Iff.rfl)

theorem State.quiet_iff (s : State) :
    s.quiet = true ↔ s.port = .idle ∧ s.intake = [] ∧ s.scatter.state = .idle ∧ s.forward = [] ∧ s.posted = [] ∧
      (∀ k, (s.slot k).state = .free) ∧ (∀ p, s.place p = none) ∧ s.gather = .idle ∧ ∀ t, s.tag t = none := by
  unfold State.quiet
  simp [List.all_eq_true, and_assoc]

/-! ### A record's departure (R63) -/

/-- The record's touched slots are marked for a pending fence that waits for it (R98); the next record, if there is one,
becomes SCATTERING. -/
theorem State.recordLeaves_exact (s : State) (r : IntakeRecord) (rest : List IntakeRecord) :
    ∃ records engine,
      (s.recordLeaves r rest).1 = State.markSlots { s with intake := records, scatter := engine }
        (if s.fence.waitsFor r then r.touched else []) ∧
      records.map (·.position) = rest.map (·.position) ∧ (rest = [] → engine = ⟨.idle, none⟩) ∧
      ∀ n more, rest = n :: more →
        engine = ⟨.placing, firstCursor n.data⟩ ∧ records = { n with state := .scattering } :: more := by
  cases rest with
  | nil => exact ⟨[], ⟨.idle, none⟩, rfl, rfl, fun _ => rfl, fun n more h => by cases h⟩
  | cons n more =>
    refine ⟨{ n with state := .scattering } :: more, ⟨.placing, firstCursor n.data⟩, rfl, rfl, ?_, ?_⟩
    · intro h
      cases h
    · intro n' more' h
      cases h
      exact ⟨rfl, rfl⟩

/-! ### Expiries (R126) -/

/-- The places that expire by a time. -/
theorem State.mem_expiredBy (s : State) (t : Nat) (p : PlaceIdx) :
    p ∈ s.expiredBy t ↔ ∃ e x, s.place p = some e ∧ e.expiry = some x ∧ x ≤ t := by
  unfold State.expiredBy State.expiryOf
  simp only [List.mem_filter, List.mem_finRange, true_and]
  rcases h : s.place p with _ | e
  · simp
  · rcases h2 : e.expiry with _ | x <;> simp [h2]

/-- They are listed in increasing place order, each once. -/
theorem State.expiredBy_increasing (s : State) (t : Nat) : (s.expiredBy t).Pairwise (· < ·) :=
  List.Pairwise.filter _ (by decide)

theorem State.discardEntry_place (s : State) (p q : PlaceIdx) :
    (s.discardEntry p).place q = if q = p then none else s.place q := by
  unfold State.discardEntry
  by_cases hq : q = p
  · subst hq
    rw [if_pos rfl]
    rcases h : s.place q with _ | e
    · exact h
    · exact State.place_setPlace_self s q none
  · rw [if_neg hq]
    rcases h : s.place p with _ | e
    · rfl
    · exact State.place_setPlace_of_ne s p q none (fun h => hq h.symm)

/-- What discarding the entries of some places leaves in the table. -/
theorem State.foldl_discardEntry_place (l : List PlaceIdx) (s : State) (q : PlaceIdx) :
    (l.foldl State.discardEntry s).place q = if q ∈ l then none else s.place q := by
  induction l generalizing s with
  | nil => simp
  | cons p l ih =>
    rw [List.foldl_cons, ih, State.discardEntry_place]
    by_cases h1 : q ∈ l <;> by_cases h2 : q = p <;> simp [h1, h2]

/-- The event unit after the DISCARD of the entry in a place, if it holds one. -/
def State.discardRaise (s : State) (ev : EventUnit) (p : PlaceIdx) : EventUnit :=
  match s.place p with
  | none => ev
  | some e => ev.raise .discard (some e.aperture) e.address (some e.requester)

/-- DISCARD is raised once for each entry of distinct places, in their order. -/
theorem State.foldl_discardEntry_events (l : List PlaceIdx) (s : State) (hl : l.Nodup) :
    (l.foldl State.discardEntry s).events = l.foldl s.discardRaise s.events := by
  induction l generalizing s with
  | nil => rfl
  | cons p l ih =>
    obtain ⟨hp, hl⟩ := List.nodup_cons.mp hl
    have first : (s.discardEntry p).events = s.discardRaise s.events p := by
      unfold State.discardEntry State.discardRaise
      cases s.place p <;> rfl
    have others : ∀ (m : List PlaceIdx) (ev : EventUnit), p ∉ m →
        m.foldl (s.discardEntry p).discardRaise ev = m.foldl s.discardRaise ev := by
      intro m
      induction m with
      | nil => exact fun _ _ => rfl
      | cons q m ihm =>
        intro ev hm
        obtain ⟨hq, hm⟩ := not_or.mp (fun h => hm (List.mem_cons.mpr h))
        rw [List.foldl_cons, List.foldl_cons, ihm _ hm]
        simp only [State.discardRaise, State.discardEntry_place, if_neg (Ne.symm hq)]
    rw [List.foldl_cons, ih _ hl, List.foldl_cons, first]
    exact others l _ hp

end Sys2Proof.Machine
end

