-- ==== Sys2Proof/Laws/SystemPort.lean ====
section
/-! SUPPORT. The system port's tests of windows, surfaces, enables and access, in the words of Safety.lean. -/

namespace Sys2Proof.Machine

/-- A surface meets a request when some addressed byte lies in it (R51, R52). -/
theorem State.surfaceMeets_iff (s : State) (r : Request) (access : SurfaceAccess) (i : ApertureIdx) :
    s.surfaceMeets r access i = true ↔ ∃ b, Addresses r b ∧ s.OnSurface access i b := by
  simp only [State.surfaceMeets, Bool.and_eq_true, bne_iff_ne, beq_iff_eq, Fields.surfaceMeets, rangesMeet_iff,
    Addresses, State.OnSurface, rangeEnd]
  constructor
  · rintro ⟨⟨h1, h2⟩, x, h3, h4⟩
    exact ⟨x, h4, h1, h2, h3⟩
  · rintro ⟨x, h4, h1, h2, h3⟩
    exact ⟨⟨h1, h2⟩, x, h3, h4⟩

/-- A window meets a request when some addressed byte lies in it (R45). -/
theorem State.windowMeets_iff (s : State) (r : Request) (i : ApertureIdx) :
    s.windowMeets r i = true ↔ ∃ b, Addresses r b ∧ s.InWindow i b := by
  simp only [State.windowMeets, Bool.and_eq_true, bne_iff_ne, Fields.viewMeets, rangesMeet_iff, Addresses,
    State.InWindow, rangeEnd]
  constructor
  · rintro ⟨h1, x, h3, h4⟩
    exact ⟨x, h4, h1, h3⟩
  · rintro ⟨x, h4, h1, h3⟩
    exact ⟨h1, x, h3, h4⟩

/-- A window holds a request of at least one beat when every addressed byte lies in it (R45). -/
theorem State.windowHolds_iff (s : State) (r : Request) (i : ApertureIdx) (h : 1 ≤ r.beats) :
    s.windowHolds r i = true ↔ ∀ b, Addresses r b → s.InWindow i b := by
  simp only [State.windowHolds, Bool.and_eq_true, bne_iff_ne, Fields.viewHolds, decide_eq_true_eq, Addresses,
    State.InWindow]
  unfold rangeEnd
  constructor
  · rintro ⟨h1, h2, h3⟩ b ⟨hb, hb'⟩
    exact ⟨h1, by omega, by omega⟩
  · intro hall
    have hfirst := hall r.address.toNat ⟨by omega, by omega⟩
    have hlast := hall (r.address.toNat + 8 * r.beats - 1) ⟨by omega, by omega⟩
    exact ⟨hfirst.1, hfirst.2.1, by omega⟩

/-- No surface of this access meets the request. -/
theorem State.find_surfaceMeets_eq_none (s : State) (r : Request) (access : SurfaceAccess)
    (h : ∀ j b, Addresses r b → ¬ s.OnSurface access j b) : (List.finRange 8).find? (s.surfaceMeets r access) = none := by
  rw [find?_finRange_eq_none]
  intro k
  rw [← Bool.not_eq_true, State.surfaceMeets_iff]
  rintro ⟨b, h1, h2⟩
  exact h k b h1 h2

theorem noneEnabled_eq_false (r : Request) : noneEnabled r = false ↔ ∃ b ∈ r.data, b.enabled = true := by
  simp [noneEnabled]

theorem noneEnabled_eq_true (r : Request) : noneEnabled r = true ↔ ∀ b ∈ r.data, b.enabled = false := by
  simp [noneEnabled]

theorem Access.allows_read (a : Access) : a.allows .read = true ↔ a ≠ .writeOnly := by
  cases a <;> simp [Access.allows]

theorem Access.allows_write (a : Access) : a.allows .write = true ↔ a ≠ .readOnly := by
  cases a <;> simp [Access.allows]

/-- A request that is handed to an aperture or passed through came in RUN and is well formed (R42). -/
theorem State.decode_wellFormed (s : State) (r : Request)
    (h : (∃ i, s.decode r = .inAperture i) ∨ (∃ i, s.decode r = .crossing i) ∨ s.decode r = .passThrough) :
    s.partState = .run ∧ malformed r = false := by
  unfold State.decode at h
  split at h
  · simp at h
  · rename_i h1
    split at h
    · simp at h
    · rename_i h2
      exact ⟨by simpa using h1, by simpa using h2⟩

end Sys2Proof.Machine
end

