-- ==== Sys2Proof/WellFormed.lean ====
section
/-! DEFINITION. Which commands a sender can send: the counts of bytes that come with a command fit together. -/

namespace Sys2Proof

/-- R160: L is a byte, so a frame has at most 255 argument bytes. -/
def Frame.wf (f : Frame) : Bool := f.args.length ≤ 255

/-- R38: a WRITE carries 8 data bytes with 8 enables for each beat; for a READ data and enables are absent. -/
def Request.wf (r : Request) : Bool :=
  match r.kind with
  | .read => r.data.isEmpty
  | .write => r.data.length == 8 * r.beats

/-- A well-formed command. -/
def Instr.wf : Instr → Bool
  | .headerReceived header => header.length == 16
  | .imageReadEnd rest => rest.length % 24 == 4 && decide (rest.length ≤ 196)
  | .request r => r.wf
  | .unknownCodeFrame code f => f.wf && (Machine.commandRow code).isNone
  | .flashXfer f flashIn => f.wf && flashIn.length + 1 == max f.args.length 1
  | .getStatus f => f.wf
  | .getAperture f => f.wf
  | .getEvents f => f.wf
  | .dumpSlots f => f.wf
  | .dumpDeferred f => f.wf
  | .stage f => f.wf
  | .commit f => f.wf
  | .suspend f => f.wf
  | .resume f => f.wf
  | .retire f => f.wf
  | .fence f => f.wf
  | .clearEvents f => f.wf
  | .setTiming f => f.wf
  | .setAttention f => f.wf
  | .flashOpen f => f.wf
  | .flashClose f => f.wf
  | .restart f => f.wf
  | .resetNAsserted => true
  | .resetNReleased => true
  | .checksEnd => true
  | .installEvent => true
  | .placement => true
  | .grant => true
  | .forwardReadCompletion _ => true
  | .forwardWriteCompletion _ => true
  | .mergeReadCompletion _ => true
  | .lineWriteCompletion _ => true
  | .immediateReadCompletion _ => true
  | .gatherReadCompletion _ => true
  | .cancelledReadCompletion _ => true
  | .strayCompletion _ => true
  | .ageExpiry _ => true
  | .discardExpiry _ => true
  | .shortFrame => true
  | .selectionStart => true
  | .selectionEnd => true
  | .responseEnd => true

end Sys2Proof
end

