-- ==== Sys2Proof/Tests/Slice0.lean ====
section
/-! SUPPORT. Tests: what the well-formedness check refuses, worked examples of the spec, and, for every statement that has
hypotheses, concrete states and operands that meet them (theorems test_meets_...). -/

open Sys2Proof Sys2Proof.Machine

namespace Sys2Proof.Tests

set_option Elab.async false

/-! ### Helpers -/

/-- The state a command leaves. -/
def after (c : Instr) (s : State) : State :=
  match exec c s with
  | .next t => t
  | .fault _ => s
  | .refused _ => s

def afterAll (s : State) (cs : List Instr) : State := cs.foldl (fun t c => after c t) s

/-- A frame whose check byte matches. -/
def frameOf (code : Byte) (args : List Byte) : Frame := ⟨args, frameCheck code args⟩

/-- The response a frame would be given, taken in a state whose receiver is RECEIVING. -/
def responseTo (c : Instr) (s : State) : List Byte :=
  match (after c { s with receiver := ⟨.receiving, [], false⟩ }).receiver.phase with
  | .responding r => r
  | _ => []

/-- The newest output. -/
def newest (s : State) : Option Output := s.trace.head?

def running : State := { State.reset with partState := .run, ready := true }

/-- The state while a frame arrives. -/
def listening (s : State) : State := { s with receiver := ⟨.receiving, [], false⟩ }

/-- The landscape record of section 1.8. -/
def landscape : Fields :=
  ⟨0x40000000#32, 0x80000000#32, 2#16, 800#16, 600#16, 1#8, .r90, false, .readWrite, .ordered, .strict⟩

/-- A record whose view rows are whole lines, stored as they are. -/
def plain : Fields :=
  ⟨0x50000000#32, 0x90000000#32, 1#16, 64#16, 4#16, 8#8, .r0, false, .readWrite, .ordered, .strict⟩

/-- The part in RUN with one ACTIVE aperture. -/
def withAperture (f : Fields) : State := running.setAperture 0 ⟨.active, f, none⟩

def served : State := withAperture plain

def readOf (a : Addr) (beats : Nat) : Request := ⟨0, .read, a, beats, []⟩

def writeOf (a : Addr) (data : List WriteByte) : Request := ⟨0, .write, a, data.length / 8, data⟩

def on (v : Byte) : WriteByte := ⟨v, true⟩
def off : WriteByte := ⟨0#8, false⟩

/-- One beat with the first byte enabled. -/
def firstOn : List WriteByte := on 0xA5#8 :: List.replicate 7 off

/-- One beat with the last byte enabled. -/
def lastOn : List WriteByte := List.replicate 7 off ++ [on 0x5A#8]

/-- A record of the plain aperture with the one byte `firstOn` enables. -/
def recordAt (position : Nat) (a : Addr) (st : RecordState) (touched : List SlotIdx) : IntakeRecord :=
  ⟨position, 0, a, 1, firstOn, st, touched⟩

def entryOf (a : Addr) (st : EntryState) (expiry : Option Nat) : Entry :=
  ⟨0, a, 1, 0, st, false, ⟨0, none⟩, ReadBuffer.blank, expiry⟩

def openSlot (line : Addr) : Slot :=
  { Slot.cleared with state := .opened, line := line, coverage := 0xFF#512, data := 0x11#512 }

def writingSlot (line : Addr) (request : SlotRequest) : Slot :=
  { Slot.cleared with
    state := .writing, line := line, coverage := 0xFF#512, data := 0x11#512, mask := 1#64, reason := .age
    request := request }

def mergingSlot (line : Addr) (coverage : BitSet512) (request : SlotRequest) : Slot :=
  { Slot.cleared with
    state := .merging, line := line, coverage := coverage, data := 0#512, mask := 3#64, reason := .evict
    request := request }

/-- A state in which every block holds something. -/
def busy : State :=
  { served with
    pending := [.placement]
    intake := [recordAt 1 0x50000000#32 .scattering [3], recordAt 2 0x50000040#32 .waiting []]
    acceptCount := 2
    scatter := ⟨.placing, some ⟨0, 0⟩⟩
    slots := (served.slots.set 3 (openSlot 0x90000000#32)).set 5
      { writingSlot 0x90000040#32 (.outstanding 2) with mark := true }
    openOrder := [3]
    flushOrder := [5]
    fence := ⟨.pending, some ⟨2, none⟩, false⟩
    places := ((served.places.set 0 (some (entryOf 0x50000080#32 .ready (some 100)))).set 1
      (some (entryOf 0x50000088#32 .gathering none))).set 2 (some (entryOf 0x50000090#32 .queued none))
    queuedOrder := [2]
    gather := .reading 1 ⟨[], [4], 1, 0, false⟩
    forward := [⟨.write, 1, 0x10000000#32, 1, firstOn, none, [⟨0x10000000#32, .unissued⟩], [], .issuing,
      ReadBuffer.blank⟩]
    tags := (served.tags.set 2 (some ⟨.combine, .write, 0x90000040#32, .slot 5⟩)).set 4
      (some ⟨.gather, .read, 0x90000080#32, .place 1⟩) }

/-! ### What the well-formedness check refuses -/

theorem test_wf_refusesFrameOfMoreThan255Arguments :
    (Instr.stage ⟨List.replicate 256 0#8, 0#8⟩).wf = false := by decide +kernel
theorem test_wf_refusesReadWithData : (Instr.request ⟨0, .read, 0#32, 1, [off]⟩).wf = false := by decide
theorem test_wf_refusesWriteWithMissingBytes : (Instr.request ⟨0, .write, 0#32, 2, firstOn⟩).wf = false := by decide
theorem test_wf_refusesShortHeader : (Instr.headerReceived (List.replicate 15 0#8)).wf = false := by decide
theorem test_wf_refusesPartOfARecord : (Instr.imageReadEnd (List.replicate 27 0#8)).wf = false := by decide
theorem test_wf_refusesNineRecords : (Instr.imageReadEnd (List.replicate 220 0#8)).wf = false := by decide +kernel
theorem test_wf_refusesKnownCodeAsUnknown : (Instr.unknownCodeFrame codeCommit ⟨[], 0#8⟩).wf = false := by decide
theorem test_wf_refusesFlashBytesThatDoNotMatch : (Instr.flashXfer ⟨[0#8, 3#8], 0#8⟩ []).wf = false := by decide
theorem test_wf_acceptsAWrite : (Instr.request (writeOf 0x50000000#32 firstOn)).wf = true := by decide

/-! ### Worked examples of the spec -/

/-- Section 9.6: the check byte of a COMMIT of index 0. -/
theorem test_commitFrame_check : frameCheck codeCommit [0#8] = 0x3D#8 := by decide +kernel

/-- Section 11: the first record of the Apertures examples, as staged. -/
theorem test_landscape_image : landscape.image =
    [0x40#8, 0#8, 0#8, 0#8, 0x80#8, 0#8, 0#8, 0#8, 0#8, 2#8, 3#8, 0x20#8, 2#8, 0x58#8, 1#8, 1#8, 0#8, 0#8, 0#8, 0#8] := by
  decide +kernel

/-- Section 1.8: its windows, and the check that a pitch of 1 fails. -/
theorem test_landscape_extents : landscape.valid = true ∧ landscape.viewEnd = 0x4000EA60 ∧
    landscape.surfaceEnd = 0x80019000 ∧ { landscape with pitch := 1#16 }.invalid = some .pitchFit := by decide +kernel

theorem test_response_ok : (Result.ok []).response = [0x01#8, 0x00#8, 0x15#8] := by decide +kernel
theorem test_response_state : Result.state.response = [0x04#8, 0x00#8, 0x54#8] := by decide +kernel
theorem test_response_pitchFit : (Result.invalid .pitchFit).response = [0x05#8, 0x01#8, 0x05#8, 0xCE#8] := by
  decide +kernel
theorem test_response_overlap : (Result.overlap 0).response = [0x06#8, 0x01#8, 0x00#8, 0x68#8] := by decide +kernel
theorem test_response_badCheck : Result.badCheck.response = [0x08#8, 0x00#8, 0xA8#8] := by decide +kernel

/-! ### One step of each family -/

theorem test_reset_thenLoading :
    (after .resetNReleased State.reset).partState = .loading ∧
      (after .resetNReleased State.reset).loader = .reading none := by decide +kernel

theorem test_header_blank :
    let s := after (.headerReceived (List.replicate 16 0xFF#8)) (after .resetNReleased State.reset)
    s.partState = .run ∧ s.ready = true ∧ s.outcome = .blank := by decide +kernel

theorem test_resetAsserted_empties : (after .resetNAsserted busy).slots = State.reset.slots ∧
    (after .resetNAsserted busy).partState = .held := by decide +kernel

theorem test_request_outsideRun : newest (after (.request (readOf 4#32 0)) State.reset) = some (.answer 0 .retry) := by
  decide +kernel
theorem test_request_misaligned :
    newest (after (.request (readOf 4#32 1)) served) = some (.answer 0 (.error .shape)) := by decide +kernel
theorem test_request_write : newest (after (.request (writeOf 0x50000000#32 firstOn)) served) =
    some (.answer 0 .accepted) := by decide +kernel
theorem test_request_immediateRead : (after (.request (readOf 0x50000000#32 1)) served).gather =
    .immediate (ReadJob.start [0x90000000#32]) ReadBuffer.blank := by decide +kernel

theorem test_placement_writesTheByte :
    let s := after .placement (after (.request (writeOf 0x50000040#32 lastOn)) served)
    (s.slot 0).line = 0x90000040#32 ∧ (s.slot 0).coverage = 0xFF#512 <<< 56 ∧
      (s.slot 0).data = 0x5A#512 <<< 56 := by decide +kernel

theorem test_grant_issuesTheHead : newest (after .grant busy) =
    some (.memory (.lineWrite 0 0x10000000#32 0xA5#512 1#64)) := by decide +kernel

theorem test_lineWriteCompletion_frees : (after (.lineWriteCompletion ⟨2, .ok, 0⟩) busy).slot 5 = Slot.cleared := by
  decide +kernel
theorem test_gatherReadCompletion_serves :
    ((after (.gatherReadCompletion ⟨4, .fault, 0⟩) busy).place 1).map (·.state) = some .failed := by decide +kernel
theorem test_strayCompletion : after (.strayCompletion ⟨7, .fault, 0⟩) busy = busy := by decide +kernel

theorem test_ageExpiry : ((after (.ageExpiry 3) busy).slot 3).reason = .age ∧ (after (.ageExpiry 3) busy).now = 64 := by
  decide +kernel
theorem test_discardExpiry : (after (.discardExpiry 0) busy).place 0 = none ∧ (after (.discardExpiry 0) busy).now = 100 := by
  decide +kernel

theorem test_shortFrame : (after .shortFrame (listening running)).events.flags = 0x40#8 := by decide +kernel
theorem test_selectionStart : (after .selectionStart running).receiver = ⟨.receiving, [], false⟩ := by decide +kernel
theorem test_unknownCode : responseTo (.unknownCodeFrame 0x77#8 (frameOf 0x77#8 [])) running = Result.unknown.response := by
  decide +kernel

theorem test_stageThenCommit :
    let s := after (.stage (frameOf codeStage landscape.image)) (listening running)
    let t := after (.commit (frameOf codeCommit [2#8])) (listening s)
    s.staging = some landscape ∧ t.staging = none ∧ t.aperture 2 = ⟨.active, landscape, none⟩ := by decide +kernel

theorem test_suspendResume :
    let s := after (.suspend (frameOf codeSuspend [0#8])) (listening served)
    (s.aperture 0).state = .suspended ∧
      ((after (.resume (frameOf codeResume [0#8])) (listening s)).aperture 0).state = .active := by decide +kernel
theorem test_retireOfAnIdleAperture :
    (after (.retire (frameOf codeRetire [0#8])) (listening served)).aperture 0 = Aperture.cleared := by decide +kernel
theorem test_fenceOfAnIdlePart :
    (after (.fence (frameOf codeFence [])) (listening running)).fence = ⟨.done, none, false⟩ := by decide +kernel
theorem test_getStatus_readsTheFence :
    (after (.getStatus (frameOf codeGetStatus [])) (listening { running with fence := ⟨.done, none, false⟩ })).fence =
      Fence.cleared := by decide +kernel
theorem test_getAperture_index :
    responseTo (.getAperture (frameOf codeGetAperture [8#8])) running = (Result.invalid .index).response := by
  decide +kernel
theorem test_getEvents : responseTo (.getEvents (frameOf codeGetEvents [])) running =
    (Result.ok (List.replicate 9 0#8 ++ [0xFF#8, 0xFF#8, 0#8, 0#8, 0#8, 0#8, 0xFF#8, 0xDF#8])).response := by
  decide +kernel
theorem test_dumpSlots_length : (responseTo (.dumpSlots (frameOf codeDumpSlots [])) busy).length = 163 := by
  decide +kernel
theorem test_dumpDeferred_length : (responseTo (.dumpDeferred (frameOf codeDumpDeferred [])) busy).length = 63 := by
  decide +kernel
theorem test_clearEvents :
    (after (.clearEvents (frameOf codeClearEvents [0x40#8])) (listening (running.raiseBare .linkError))).events =
      EventUnit.cleared := by decide +kernel
theorem test_setTiming :
    (after (.setTiming (frameOf codeSetTiming [0#8, 0#8, 0#8, 16#8, 15#8])) (listening running)).timing = ⟨0, 16, 15⟩ := by
  decide +kernel
theorem test_setAttention :
    (after (.setAttention (frameOf codeSetAttention [0xFF#8])) (listening running)).events.attention = 0xFF#8 := by
  decide +kernel
theorem test_flashOpenThenClose :
    let s := after (.flashOpen (frameOf codeFlashOpen [])) (listening running)
    s.session = .deselected ∧
      (after (.flashClose (frameOf codeFlashClose [])) (listening s)).session = .closed := by decide +kernel
theorem test_flashXfer :
    let s := after (.flashXfer (frameOf codeFlashXfer [0#8, 0x9F#8]) [0xEF#8])
      (listening { running with session := .deselected })
    s.session = .selected ∧ newest s = some (.flashShift [0x9F#8]) ∧ s.flash.selN = false ∧
      s.receiver.phase = .responding (Result.ok [0xEF#8]).response := by decide +kernel
theorem test_restartOfAnIdlePart :
    let s := after (.restart (frameOf codeRestart [])) (listening served)
    s.partState = .loading ∧ s.ready = false ∧ s.aperture 0 = Aperture.cleared := by decide +kernel
theorem test_responseEnd :
    (after .responseEnd { running with receiver := ⟨.responding [1#8], [], false⟩ }).receiver.phase = .trailing := by
  decide +kernel

/-! ### States and operands that meet the statements' hypotheses: laws, reset, loading -/

/-- A condition on every entry of the table, computed. -/
theorem place_all (s : State) (f : PlaceIdx → Entry → Bool) (h : ∀ p, (s.place p).all (f p) = true) :
    ∀ p e, s.place p = some e → f p e = true := by
  intro p e he
  have := h p
  simpa [he] using this

theorem test_meets_everyLaw : busy.PartLaw ∧ busy.SettingsLaw ∧ busy.TableLaw ∧ busy.IntakeLaw ∧ busy.SlotLaw ∧
    busy.FenceLaw ∧ busy.DeferredLaw ∧ busy.ForwardLaw ∧ ∃ t, step busy = .next t :=
  ⟨State.partLaw_of_check _ (by decide +kernel), State.settingsLaw_of_check _ (by decide +kernel),
    State.tableLaw_of_check _ (by decide +kernel), State.intakeLaw_of_check _ (by decide +kernel),
    State.slotLaw_of_check _ (by decide +kernel), State.fenceLaw_of_check _ (by decide +kernel),
    State.deferredLaw_of_check _ (by decide +kernel), State.forwardLaw_of_check _ (by decide +kernel), _, rfl⟩

/-- One microsecond before the deadline of its slot and the expiry time of its entry. -/
def nearly : State :=
  { served with
    now := 62
    slots := served.slots.set 3 (openSlot 0x90000000#32)
    openOrder := [3]
    places := served.places.set 0 (some (entryOf 0x50000080#32 .ready (some 64))) }

theorem test_meets_IdleStep : nearly.pending = [] ∧
    (∀ k ∈ nearly.openOrder, nearly.timing.ageLimit = 0 ∨
      nearly.now + 1 < (nearly.slot k).openTime + nearly.timing.ageLimit) ∧
    (∀ p e x, nearly.place p = some e → e.expiry = some x → nearly.now + 1 < x) ∧ ∀ i, nearly.drained i = false := by
  refine ⟨by decide +kernel, by decide +kernel, fun p e x he hx => ?_, by decide +kernel⟩
  have := place_all nearly (fun _ e => e.expiry.all (fun x => decide (nearly.now + 1 < x))) (by decide +kernel) p e he
  simpa [hx] using this

theorem test_meets_ResetRelease : State.reset.partState = .held ∧ State.reset.flash = FlashPins.rest := by
  decide +kernel

/-- The loader in a state of a load. -/
def loadingIn (l : Loader) : State := { State.reset with partState := .loading, loader := l }

/-- A header of section 11. -/
def header (magic : List Byte) (version n : Byte) (age discard : Nat) (allowance : Byte) : List Byte :=
  magic ++ [version, n] ++ bytesOf 2 age ++ bytesOf 2 discard ++ [allowance, 0x20#8, 0#8, 0#8, 0#8, 0#8]

def magic : List Byte := [0x55#8, 0x4C#8, 0x56#8, 0x4E#8]

theorem test_meets_HeaderReceived :
    (loadingIn (.reading none)).loader = .reading none ∧ (header magic 1#8 8#8 4095 16 15#8).length = 16 ∧
    (headerOf (header (List.replicate 4 0xFF#8) 1#8 0#8 0 16 1#8)).verdict = .blank ∧
    (headerOf (header [0x55#8, 0x4C#8, 0x56#8, 0x4D#8] 1#8 0#8 0 16 1#8)).verdict = .corrupt 0 ∧
    (headerOf (header magic 2#8 0#8 0 16 1#8)).verdict = .corrupt 4 ∧
    (headerOf (header magic 1#8 9#8 0 16 1#8)).verdict = .corrupt 5 ∧
    (headerOf (header magic 1#8 8#8 4096 16 1#8)).verdict = .corrupt 6 ∧
    (headerOf (header magic 1#8 8#8 4095 15 1#8)).verdict = .corrupt 8 ∧
    (headerOf (header magic 1#8 8#8 4095 16 0#8)).verdict = .corrupt 10 ∧
    (headerOf (header magic 1#8 8#8 4095 16 16#8)).verdict = .corrupt 10 ∧
    (headerOf (header magic 1#8 8#8 4095 16 15#8)).verdict = .goesOn ∧
    (headerOf (header magic 1#8 0#8 0 16 1#8)).verdict = .goesOn := by decide +kernel

theorem test_meets_ImageReadEnd :
    (List.replicate 4 0#8).length = 24 * (headerOf (header magic 1#8 0#8 0 16 1#8)).recordCount.toNat + 4 ∧
    (List.replicate 196 0#8).length = 24 * (headerOf (header magic 1#8 8#8 0 16 1#8)).recordCount.toNat + 4 := by
  decide +kernel

/-- An image of section 11 with its CRC. -/
def imageOf (records : List (Byte × Fields)) : List Byte :=
  let body := header magic 1#8 (BitVec.ofNat 8 records.length) 64 2048 4#8 ++
    records.flatMap (fun r => [r.1, 0#8, 0#8, 0#8] ++ r.2.image)
  body ++ bytesOf 4 (crc32 body).toNat

theorem test_meets_ChecksEnd :
    checkImage (imageOf [(0#8, plain), (7#8, landscape)]) = .ok [⟨0, plain⟩, ⟨7, landscape⟩] ∧
    checkImage ((imageOf [(0#8, plain)]).set 20 1#8) = .error 40 ∧
    checkImage ((imageOf []).set 15 1#8) = .error 16 := by decide +kernel

theorem test_meets_ChecksEnd_records :
    checkImage (imageOf [(8#8, plain)]) = .error 16 ∧
    checkImage (imageOf [(0#8, plain), (8#8, landscape)]) = .error 40 ∧
    checkImage (imageOf [(0#8, plain), (0#8, landscape)]) = .error 40 ∧
    checkImage (imageOf [(0#8, plain), (1#8, plain)]) = .error 40 ∧
    checkImage (imageOf []) = .ok [] := by decide +kernel

theorem test_meets_ChecksEnd_lists : ∀ j r, [BootRecord.mk 0 plain, ⟨7, landscape⟩][j]? = some r →
    bootRecordOf (recordBytes (imageOf [(0#8, plain), (7#8, landscape)]) j) = some r := by
  have h0 : bootRecordOf (recordBytes (imageOf [(0#8, plain), (7#8, landscape)]) 0) = some ⟨0, plain⟩ := by
    decide +kernel
  have h1 : bootRecordOf (recordBytes (imageOf [(0#8, plain), (7#8, landscape)]) 1) = some ⟨7, landscape⟩ := by
    decide +kernel
  intro j r h
  rcases j with _ | _ | j
  · simpa using h ▸ h0
  · simpa using h ▸ h1
  · simp at h

theorem test_meets_InstallEvent :
    [BootRecord.mk 0 plain, ⟨7, landscape⟩].Pairwise (fun a b => a.index ≠ b.index) ∧
    (after .installEvent (loadingIn (.installing (headerOf (header magic 1#8 2#8 0 16 1#8))
      [⟨0, plain⟩, ⟨7, landscape⟩]))).aperture 7 = ⟨.active, landscape, none⟩ := by decide +kernel

/-! ### The system port -/

theorem test_meets_Decode :
    served.partState = .run ∧ malformed (readOf 0x50000000#32 16) = false ∧ malformed (readOf 0x500000F8#32 1) = false ∧
    served.decode (readOf 0x50000000#32 16) = .inAperture 0 ∧ served.decode (readOf 0x500000F8#32 1) = .inAperture 0 ∧
    served.decode (readOf 0x500000F8#32 2) = .crossing 0 ∧ served.decode (readOf 0x50000100#32 1) = .passThrough ∧
    served.decode (readOf 0x4FFFFFF8#32 1) = .passThrough := by decide +kernel

theorem test_meets_Decode_wholly : ∃ i, ∀ b, Addresses (readOf 0x500000F8#32 1) b → served.InWindow i b :=
  ⟨0, (State.windowHolds_iff _ _ _ (by decide)).mp (by decide +kernel)⟩

theorem test_meets_Decode_partly :
    (∃ i b, Addresses (readOf 0x500000F8#32 2) b ∧ served.InWindow i b) ∧
      ¬ ∃ i, ∀ b, Addresses (readOf 0x500000F8#32 2) b → served.InWindow i b :=
  ⟨⟨0, (State.windowMeets_iff _ _ _).mp (by decide +kernel)⟩, fun ⟨i, h⟩ => by
    have none : ∀ i, served.windowHolds (readOf 0x500000F8#32 2) i = false := by decide +kernel
    have := (State.windowHolds_iff served (readOf 0x500000F8#32 2) i (by decide)).mpr h
    rw [none i] at this
    cases this⟩

theorem test_meets_Decode_outside : ¬ ∃ i b, Addresses (readOf 0x50000100#32 1) b ∧ served.InWindow i b := by
  rintro ⟨i, h⟩
  have none : ∀ i, served.windowMeets (readOf 0x50000100#32 1) i = false := by decide +kernel
  have := (State.windowMeets_iff _ _ i).mpr h
  rw [none i] at this
  cases this

/-- The plain aperture with another access or surface access, or in another state. -/
def guarding (access : Access) (surface : SurfaceAccess) : State :=
  withAperture { plain with access := access, surfaceAccess := surface }

def inState (st : ApertureState) : State :=
  running.setAperture 0 ⟨st, plain, if st = .draining then some ⟨0, some 0⟩ else none⟩

theorem test_meets_RefusedRequests_shape :
    served.port = .idle ∧ served.partState = .run ∧ malformed (readOf 0x50000000#32 0) = true ∧
    malformed (readOf 0x50000000#32 17) = true ∧ malformed (readOf 0x50000001#32 1) = true ∧
    malformed (readOf 0x50000FF8#32 2) = true ∧ malformed (readOf 0x50000FF8#32 1) = false ∧
    malformed (readOf 0x50000F80#32 16) = false := by decide +kernel

theorem test_meets_RefusedRequests :
    (guarding .readOnly .ordered).decode (writeOf 0x50000000#32 firstOn) = .inAperture 0 ∧
    (guarding .writeOnly .ordered).decode (readOf 0x50000000#32 1) = .inAperture 0 ∧
    ((guarding .writeOnly .ordered).aperture 0).state = .active ∧
    served.decode (readOf 0x500000F8#32 2) = .crossing 0 ∧
    (guarding .readWrite .denied).decode (readOf 0x900000F8#32 1) = .passThrough ∧
    newest (after (.request (readOf 0x900000F8#32 1)) (guarding .readWrite .denied)) =
      some (.answer 0 (.error .denied)) := by decide +kernel

theorem test_meets_RefusedRequests_denied :
    (∃ b, Addresses (readOf 0x900000F8#32 1) b ∧ (guarding .readWrite .denied).OnSurface .denied 0 b) ∧
    ∀ j < (0 : ApertureIdx), ¬ ∃ b, Addresses (readOf 0x900000F8#32 1) b ∧
      (guarding .readWrite .denied).OnSurface .denied j b :=
  ⟨(State.surfaceMeets_iff _ _ _ _).mp (by decide +kernel), fun j hj => absurd hj (Fin.not_lt_zero j)⟩

/-- Eight records, and six entries. -/
def fullIntake : State :=
  { served with intake := recordAt 1 0x50000000#32 .scattering [] ::
      (List.range 7).map (fun k => recordAt (k + 2) 0x50000000#32 .waiting []) }

def fullForward : State :=
  { served with forward := List.replicate 6 ⟨.write, 1, 0x10000000#32, 1, firstOn, none,
      [⟨0x10000000#32, .unissued⟩], [], .behind, ReadBuffer.blank⟩ }

theorem test_meets_RequestsThatChangeNothing :
    State.reset.partState ≠ .run ∧ (inState .draining).decode (readOf 0x50000000#32 1) = .inAperture 0 ∧
    ((inState .draining).aperture 0).state = .draining ∧
    (inState .suspended).decode (writeOf 0x50000000#32 firstOn) = .inAperture 0 ∧
    ((inState .suspended).aperture 0).state = .suspended ∧ (∀ p, (inState .suspended).place p = none) ∧
    fullIntake.decode (writeOf 0x50000000#32 firstOn) = .inAperture 0 ∧ fullIntake.intake.length = 8 ∧
    fullForward.decode (readOf 0x10000000#32 1) = .passThrough ∧ fullForward.forward.length = 6 ∧
    (∃ b ∈ firstOn, b.enabled = true) ∧ (∃ b ∈ lastOn, b.enabled = true) ∧
    (∀ b ∈ List.replicate 8 off, b.enabled = false) ∧
    served.decode (writeOf 0x50000000#32 (List.replicate 8 off)) = .inAperture 0 ∧
    fullForward.decode (writeOf 0x10000000#32 (List.replicate 8 off)) = .passThrough := by decide +kernel

theorem test_meets_noSurface : ∀ j b, Addresses (readOf 0x10000000#32 1) b → ¬ fullForward.OnSurface .denied j b := by
  intro j b h1 h2
  have none : ∀ j, fullForward.surfaceMeets (readOf 0x10000000#32 1) .denied j = false := by decide +kernel
  have := (State.surfaceMeets_iff fullForward (readOf 0x10000000#32 1) .denied j).mpr ⟨b, h1, h2⟩
  rw [none j] at this
  cases this

theorem test_meets_ApertureWrite :
    served.port = .idle ∧ served.decode (writeOf 0x500000F8#32 lastOn) = .inAperture 0 ∧
    (served.aperture 0).state = .active ∧ (served.aperture 0).fields.access ≠ .readOnly ∧ served.intake.length < 8 ∧
    lastOn[7]? = some (on 0x5A#8) ∧ (∀ m < 7, lastOn[m]?.all (fun d => !d.enabled) = true) ∧
    firstOn[0]? = some (on 0xA5#8) ∧ busy.decode (writeOf 0x50000000#32 firstOn) = .inAperture 0 ∧
    busy.intake ≠ [] ∧ busy.intake.length < 8 := by decide +kernel

theorem test_meets_PassThrough :
    served.decode (writeOf 0x90000000#32 firstOn) = .passThrough ∧ served.decode (readOf 0x90000100#32 1) = .passThrough ∧
    (∀ j, served.surfaceMeets (writeOf 0x90000000#32 firstOn) .denied j = false) ∧
    served.surfaceMeets (writeOf 0x900000F8#32 firstOn) .ordered 0 = true ∧
    (∀ j, served.surfaceMeets (readOf 0x90000100#32 1) .ordered j = false) ∧ served.forward.length < 6 := by
  decide +kernel

theorem test_meets_LineLists :
    malformed (readOf 0x10000038#32 2) = false ∧ malformed (writeOf 0x10000038#32 (List.replicate 8 off ++ firstOn)) = false ∧
    (writeOf 0x10000038#32 (List.replicate 8 off ++ firstOn)).data.length = 16 ∧
    lineList (readOf 0x10000038#32 2) = [⟨0x10000000#32, .unissued⟩, ⟨0x10000040#32, .unissued⟩] ∧
    lineList (writeOf 0x10000038#32 (List.replicate 8 off ++ firstOn)) = [⟨0x10000040#32, .unissued⟩] ∧
    (writeMask 0x10000038#32 (List.replicate 8 off ++ firstOn) 0x10000040#32).getLsbD 0 = true ∧
    (writeMask 0x10000038#32 (List.replicate 8 off ++ firstOn) 0x10000040#32).getLsbD 63 = false := by decide +kernel

/-! ### The deferred read table -/

/-- The served part with one entry in place 2, its engine and its order. -/
def withEntry (e : Entry) (g : Gather) (order : List PlaceIdx) : State :=
  { served with places := served.places.set 2 (some e), gather := g, queuedOrder := order }

def reading (outstanding : List Tag) (unissued : List Addr) : ReadJob :=
  ⟨unissued, outstanding, outstanding.length + unissued.length, 0, false⟩

def queuedState : State :=
  { withEntry (entryOf 0x50000000#32 .queued none) (.reading 1 (reading [] [0x90000040#32])) [2] with
    places := ((served.places.set 2 (some (entryOf 0x50000000#32 .queued none))).set 1
      (some (entryOf 0x50000040#32 .gathering none))) }

def gatheringState : State := withEntry (entryOf 0x50000000#32 .gathering none) (.priorWait 2) []

def readyState (stale : Bool) : State :=
  withEntry { entryOf 0x50000000#32 .ready (some 2048) with stale := stale } .idle []

def failedState : State := withEntry (entryOf 0x50000000#32 .failed (some 2048)) .idle []

/-- One line read outstanding under tag 7. -/
def readingState : State :=
  { withEntry (entryOf 0x50000000#32 .gathering none) (.reading 2 (reading [7] [])) [] with
    tags := served.tags.set 7 (some ⟨.gather, .read, 0x90000000#32, .place 2⟩) }

def cancelledState : State :=
  { withEntry (entryOf 0x50000000#32 .cancelled none) (.cancelWait 2 (reading [7] [])) [] with
    tags := served.tags.set 7 (some ⟨.gather, .read, 0x90000000#32, .place 2⟩) }

theorem test_meets_Claims :
    queuedState.DeferredLaw ∧ gatheringState.DeferredLaw ∧ (readyState false).DeferredLaw ∧
      (readyState true).DeferredLaw ∧ failedState.DeferredLaw :=
  ⟨State.deferredLaw_of_check _ (by decide +kernel), State.deferredLaw_of_check _ (by decide +kernel),
    State.deferredLaw_of_check _ (by decide +kernel), State.deferredLaw_of_check _ (by decide +kernel),
    State.deferredLaw_of_check _ (by decide +kernel)⟩

/-- The aperture of a READY entry is SUSPENDED. -/
def suspendedClaim : State := (readyState true).setAperture 0 ⟨.suspended, plain, none⟩

theorem test_meets_Claims_suspended :
    suspendedClaim.DeferredLaw ∧ suspendedClaim.decode (readOf 0x50000000#32 1) = .inAperture 0 ∧
      (suspendedClaim.aperture 0).state = .suspended :=
  ⟨State.deferredLaw_of_check _ (by decide +kernel), by decide +kernel, by decide +kernel⟩

theorem test_meets_Claims_operands :
    (readyState false).port = .idle ∧ (readyState false).decode (readOf 0x50000000#32 1) = .inAperture 0 ∧
    ((readyState false).aperture 0).state = .active ∧ ((readyState false).aperture 0).fields.access ≠ .writeOnly ∧
    ((readyState false).place 2).map (fun e => (e.requester, e.address, e.beats)) = some (0, 0x50000000#32, 1) ∧
    queuedState.decode (readOf 0x50000000#32 1) = .inAperture 0 ∧
    gatheringState.decode (readOf 0x50000000#32 1) = .inAperture 0 ∧
    failedState.decode (readOf 0x50000000#32 1) = .inAperture 0 := by decide +kernel

/-- Every place taken by an entry with another key. -/
def fullTable : State :=
  { served with
    places := Vector.ofFn (fun p : PlaceIdx => some (entryOf (BitVec.ofNat 32 (0x50000040 + 8 * p.val)) .ready (some 9)))
    intake := [recordAt 1 0x50000000#32 .scattering []] }

theorem test_meets_Reads :
    served.decode (readOf 0x50000000#32 1) = .inAperture 0 ∧ (∀ p, served.place p = none) ∧
    (plain.footprint 0x50000000#32 1).length = 1 ∧ (plain.footprint 0x50000038#32 2).length = 2 ∧
    (plain.footprint 0x50000040#32 9).length = 2 ∧ served.immediateOk (readOf 0x50000038#32 2) 0 = true ∧
    fullIntake.decode (readOf 0x50000000#32 1) = .inAperture 0 ∧ fullIntake.immediateOk (readOf 0x50000000#32 1) 0 = false ∧
    fullIntake.place 0 = none ∧ fullTable.decode (readOf 0x50000000#32 1) = .inAperture 0 ∧
    fullTable.immediateOk (readOf 0x50000000#32 1) 0 = false ∧ (∀ p, fullTable.place p ≠ none) := by decide +kernel

theorem test_meets_Reads_noEntry : ∀ p e, fullTable.place p = some e → e.state ≠ .cancelled → e.requester = 0 →
    e.address = 0x50000000#32 → e.beats ≠ 1 := by
  intro p e he _ _ ha
  have := place_all fullTable (fun _ e => decide (e.address ≠ 0x50000000#32)) (by decide +kernel) p e he
  simp [ha] at this

theorem test_meets_Expiries :
    ((readyState false).place 2).bind (·.expiry) = some 2048 ∧ nearly.slotCheck = true ∧
    (nearly.slot 3).state = .opened ∧ nearly.timing.ageLimit ≠ 0 ∧
    (∀ q, q ≠ 2 → (readyState false).place q = none) := by decide +kernel

/-- A DRAINING aperture whose last two entries expire at different times, the higher place's first. -/
def twoExpire : State :=
  { inState .draining with
    places := ((inState .draining).places.set 1 (some (entryOf 0x50000080#32 .ready (some 90)))).set 3
      (some (entryOf 0x500000C0#32 .failed (some 64))) }

/-- R126: one event discards both in place order, so the record names the higher place. -/
theorem test_meets_Expiries_two :
    (twoExpire.place 1).bind (·.expiry) = some 90 ∧ (twoExpire.place 3).bind (·.expiry) = some 64 ∧
    (let t := after (.discardExpiry 1) twoExpire
    t.now = 90 ∧ t.place 1 = none ∧ t.place 3 = none ∧ t.events.counts[EventKind.discard.number] = 2 ∧
      t.events.lastFault = some ⟨.discard, some 0, 0x500000C0#32, some 0⟩ ∧ t.aperture 0 = Aperture.cleared) ∧
    (let t := after (.discardExpiry 3) twoExpire
    t.now = 64 ∧ t.place 1 = twoExpire.place 1 ∧ t.events.counts[EventKind.discard.number] = 1 ∧
      t.aperture 0 = twoExpire.aperture 0) := by decide +kernel

/-- One passage of time reaches a slot's deadline and an entry's expiry time. -/
theorem test_meets_Expiries_both :
    (let t := after (.ageExpiry 3) nearly
    t.now = 64 ∧ t.place 0 = none ∧ (t.slot 3).reason = .age ∧ t.flushOrder = [3] ∧ t.openOrder = []) := by
  decide +kernel

theorem test_meets_Cancellation :
    queuedState.DeferredLaw ∧ (readyState false).DeferredLaw ∧ failedState.DeferredLaw ∧ gatheringState.DeferredLaw ∧
      readingState.DeferredLaw ∧ cancelledState.DeferredLaw ∧ gatheringState.gather.outstanding = [] ∧
      readingState.gather = .reading 2 (reading [7] []) ∧ (reading [7] []).outstanding ≠ [] :=
  ⟨State.deferredLaw_of_check _ (by decide +kernel), State.deferredLaw_of_check _ (by decide +kernel),
    State.deferredLaw_of_check _ (by decide +kernel), State.deferredLaw_of_check _ (by decide +kernel),
    State.deferredLaw_of_check _ (by decide +kernel), State.deferredLaw_of_check _ (by decide +kernel),
    by decide +kernel, by decide +kernel, by decide +kernel⟩

/-! ### The scatter engine and the combine store -/

/-- The scattering record of the plain aperture at its first element, with the slots of the combine store. -/
def placing (data : List WriteByte) (slots : Vector Slot 16) (opens : List SlotIdx) (rest : List IntakeRecord) : State :=
  { served with
    intake := ⟨1, 0, 0x50000000#32, 1, data, .scattering, []⟩ :: rest
    acceptCount := 1 + rest.length
    scatter := ⟨.placing, some ⟨0, 0⟩⟩
    slots := slots
    openOrder := opens }

/-- Two enabled bytes. -/
def bothOn : List WriteByte := on 1#8 :: on 2#8 :: List.replicate 6 off

def oneOpen : Vector Slot 16 := served.slots.set 3 (openSlot 0x90000000#32)

/-- An OPEN slot that lacks only the byte the next placement writes. -/
def almostFull : Vector Slot 16 :=
  served.slots.set 3 { openSlot 0x90000000#32 with coverage := BitVec.allOnes 512 <<< 8 }

/-- Sixteen slots, none FREE and none for the first line. -/
def allWriting : Vector Slot 16 := Vector.replicate 16 (writingSlot 0x90000040#32 .ready)

def line0 : Addr := 0x90000000#32

theorem test_meets_PlacementFillsASlot :
    (placementAt plain (recordAt 1 0x50000000#32 .scattering []) ⟨0, 0⟩).line = line0 ∧
    nextCursor plain bothOn ⟨0, 0⟩ = some ⟨1, 0⟩ ∧
    (placing bothOn oneOpen [3] []).slotWith .opened line0 = some 3 ∧
    ((placing bothOn oneOpen [3] []).slot 3).coverage ≠ BitVec.allOnes 512 ∧
    (placing bothOn served.slots [] []).slotWith .opened line0 = none ∧
    (placing bothOn served.slots [] []).slotWith .merging line0 = none ∧
    ((placing bothOn served.slots [] []).slot 0).state = .free ∧
    (placing bothOn almostFull [3] []).slotWith .opened line0 = some 3 ∧
    (((placing bothOn almostFull [3] []).slot 3).placed
      (placementAt plain ⟨1, 0, 0x50000000#32, 1, bothOn, .scattering, []⟩ ⟨0, 0⟩)).coverage = BitVec.allOnes 512 ∧
    (placing bothOn almostFull [3] []).slotCheck = true ∧ 0 < 512 ∧ 511 < 512 := by decide +kernel

/-- A record of the plain aperture with another depth and width, the row still one line at most. -/
def deep (depth : Byte) (width : BitVec 16) : Fields := { plain with depth := depth, width := width }

/-- The visiting order at the shallowest and the deepest elements, and past the last enabled byte (R68). -/
theorem test_meets_Cursor :
    (deep 1#8 512#16).valid = true ∧ (deep 16#8 32#16).valid = true ∧
    firstCursor lastOn = some ⟨7, 0⟩ ∧ firstCursor bothOn = some ⟨0, 0⟩ ∧
    nextCursor (deep 1#8 512#16) bothOn ⟨0, 6⟩ = some ⟨0, 7⟩ ∧ nextCursor (deep 1#8 512#16) bothOn ⟨0, 7⟩ = some ⟨1, 0⟩ ∧
    nextCursor (deep 1#8 512#16) bothOn ⟨1, 7⟩ = none ∧ nextCursor (deep 4#8 128#16) bothOn ⟨1, 0⟩ = some ⟨1, 1⟩ ∧
    nextCursor (deep 16#8 32#16) bothOn ⟨0, 0⟩ = some ⟨1, 0⟩ ∧ nextCursor (deep 16#8 32#16) bothOn ⟨1, 0⟩ = none := by
  decide +kernel

/-- The placements of a byte: a bit, a mirrored nibble, and the two halves of a 16-bit element (R29, R32). -/
theorem test_meets_Placement :
    let r : IntakeRecord := ⟨1, 0, 0x50000000#32, 1, on 0x5A#8 :: on 0xC3#8 :: List.replicate 6 off, .scattering, []⟩
    placementAt (deep 1#8 512#16) r ⟨0, 7⟩ = ⟨line0, 7, 1, 0⟩ ∧ placementAt (deep 1#8 512#16) r ⟨0, 6⟩ = ⟨line0, 6, 1, 1⟩ ∧
    placementAt { deep 4#8 128#16 with mirror := true } r ⟨0, 1⟩ = ⟨line0, 504, 4, 5⟩ ∧
    placementAt { deep 16#8 32#16 with orientation := .r180 } r ⟨0, 0⟩ = ⟨0x900000C0#32, 496, 8, 0x5A⟩ ∧
    placementAt { deep 16#8 32#16 with orientation := .r180 } r ⟨1, 0⟩ = ⟨0x900000C0#32, 504, 8, 0xC3⟩ := by
  decide +kernel

theorem test_meets_PlacementWaits :
    (placing bothOn (served.slots.set 2 (mergingSlot line0 1#512 .ready)) [] []).slotWith .opened line0 = none ∧
    (placing bothOn (served.slots.set 2 (mergingSlot line0 1#512 .ready)) [] []).slotWith .merging line0 = some 2 ∧
    (placing bothOn allWriting [] []).slotWith .opened line0 = none ∧
    (placing bothOn allWriting [] []).slotWith .merging line0 = none ∧
    (∀ k, ((placing bothOn allWriting [] []).slot k).state ≠ .free) ∧
    (placing bothOn (allWriting.set 3 (openSlot 0x90000080#32)) [3] []).slotWith .opened line0 = none ∧
    (∀ k, ((placing bothOn (allWriting.set 3 (openSlot 0x90000080#32)) [3] []).slot k).state ≠ .free) := by decide +kernel

/-- The last placement of a record that a pending fence waits for. -/
def lastPlacement (rest : List IntakeRecord) : State :=
  { placing firstOn oneOpen [3] rest with fence := ⟨.pending, some ⟨1, none⟩, false⟩ }

theorem test_meets_LastPlacement :
    (lastPlacement []).SlotLaw ∧ nextCursor plain firstOn ⟨0, 0⟩ = none ∧
    (lastPlacement []).slotWith .opened line0 = some 3 ∧
    (lastPlacement [recordAt 2 0x50000040#32 .waiting []]).SlotLaw ∧
    (PriorSet.mk 1 none).holds (recordAt 1 0x50000000#32 .scattering []) = true :=
  ⟨State.slotLaw_of_check _ (by decide +kernel), by decide +kernel, by decide +kernel,
    State.slotLaw_of_check _ (by decide +kernel), by decide +kernel⟩

/-- The same with the slot yet to be opened. -/
def lastPlacementFresh : State := { placing firstOn served.slots [] [] with fence := ⟨.pending, some ⟨1, none⟩, false⟩ }

theorem test_meets_LastPlacement_fresh :
    lastPlacementFresh.SlotLaw ∧ lastPlacementFresh.slotWith .opened line0 = none ∧
    lastPlacementFresh.slotWith .merging line0 = none ∧ (lastPlacementFresh.slot 0).state = .free ∧
    ((after .placement lastPlacementFresh).slot 0).mark = true ∧
    ((after .placement lastPlacementFresh).slot 0).reason = .fence :=
  ⟨State.slotLaw_of_check _ (by decide +kernel), by decide +kernel, by decide +kernel, by decide +kernel,
    by decide +kernel, by decide +kernel⟩

/-- The last placement of a record that the drain of its aperture waits for, another slot of the aperture OPEN. -/
def lastOfDrain : State :=
  { placing firstOn (oneOpen.set 7 (openSlot 0x90000040#32)) [3, 7] [] with
    apertures := served.apertures.set 0 ⟨.draining, plain, some ⟨1, some 0⟩⟩ }

theorem test_meets_LastPlacement_drain :
    lastOfDrain.SlotLaw ∧ nextCursor plain firstOn ⟨0, 0⟩ = none ∧ lastOfDrain.slotWith .opened line0 = some 3 ∧
    (lastOfDrain.aperture 0).drain = some ⟨1, some 0⟩ ∧ lastOfDrain.fence.state ≠ .pending ∧
    (let t := after .placement lastOfDrain
    (t.slot 3).reason = .retire ∧ (t.slot 7).reason = .retire ∧ (t.slot 3).data = 0xA5#512 ∧ t.flushOrder = [3, 7] ∧
      (t.aperture 0).state = .draining) :=
  ⟨State.slotLaw_of_check _ (by decide +kernel), by decide +kernel, by decide +kernel, by decide +kernel,
    by decide +kernel, by decide +kernel⟩

/-- A closing slot that the scattering record touched is fence-marked, one that it did not touch is not (R99). -/
theorem test_meets_Closing_marks :
    let s : State := { busy with
      slots := busy.slots.set 7 (openSlot 0x90000080#32)
      openOrder := [7, 3] }
    s.slotCheck = true ∧ s.fenceCatches 3 = true ∧ s.fenceCatches 7 = false ∧
    (let t := s.closeFor [⟨.age, [3]⟩, ⟨.evict, [3, 7]⟩]
    (t.slot 3).mark = true ∧ (t.slot 7).mark = false ∧ (t.slot 3).reason = .evict ∧ t.flushOrder = [5, 7, 3] ∧
      t.openOrder = [] ∧ t.intake.map (·.touched) = [[], []]) := by decide +kernel

theorem test_meets_Closing :
    busy.slotCheck = true ∧ (3 : SlotIdx) ∈ busy.openOrder ∧
    reasonFor [⟨.age, [3]⟩, ⟨.fence, [3]⟩] 3 = some .fence ∧ reasonFor [⟨.age, [3]⟩] 5 = none := by decide +kernel

/-- A MERGING slot whose merge read is outstanding under tag 0, with the scatter engine in a state. -/
def merging (coverage : BitSet512) (engine : EngineState) : State :=
  { placing bothOn (served.slots.set 2 (mergingSlot line0 coverage (.outstanding 0))) [] [] with
    flushOrder := [2]
    scatter := ⟨engine, some ⟨0, 0⟩⟩
    tags := served.tags.set 0 (some ⟨.combine, .read, line0, .slot 2⟩) }

theorem test_meets_MergeRead :
    (merging 1#512 .placing).tag 0 = some ⟨.combine, .read, line0, .slot 2⟩ ∧
    wholeBytes ((merging 1#512 .placing).slot 2).coverage = 0#64 ∧
    wholeBytes ((merging 0x1FF#512 .placing).slot 2).coverage = 1#64 ∧
    (merging 1#512 .waitMerge).cursorLine = some line0 ∧
    ((after (.mergeReadCompletion ⟨0, .ok, 0xFE#512⟩) (merging 1#512 .waitMerge)).slot 2).data = 0xFE#512 ∧
    ((after (.mergeReadCompletion ⟨0, .fault, 0⟩) (merging 0x1FF#512 .waitSlot)).slot 2).mask = 1#64 ∧
    ((after (.mergeReadCompletion ⟨0, .fault, 0⟩) (merging 1#512 .waitSlot)).slot 0).state = .opened := by decide +kernel

theorem test_meets_LineWrite :
    busy.tag 2 = some ⟨.combine, .write, 0x90000040#32, .slot 5⟩ ∧ busy.scatter.state = .placing ∧
    busy.fence.state = .pending ∧ (busy.slot 5).mark = true ∧
    (after (.lineWriteCompletion ⟨2, .fault, 0⟩) busy).fence.fault = true ∧
    { busy with scatter := ⟨.waitSlot, some ⟨0, 0⟩⟩ }.scatter.state = .waitSlot := by decide +kernel

/-! ### Settling -/

def fencePending : State := { running with fence := ⟨.pending, some ⟨0, none⟩, true⟩ }

def quiescing : State := { served with partState := .quiescing, ready := false }

theorem test_meets_Settling :
    busy.partState ≠ .quiescing ∧ (fencePending.settle []).fence = ⟨.doneFault, none, false⟩ ∧
    (busy.settle []).fence.state = .pending ∧ ((inState .draining).settle []).aperture 0 = Aperture.cleared ∧
    (busy.settle []).aperture 0 = busy.aperture 0 ∧ quiescing.partState = .quiescing ∧ quiescing.quiet = true ∧
    (quiescing.settle []).partState = .loading ∧ { busy with partState := .quiescing }.quiet = false ∧
    ({ busy with partState := .quiescing }.settle []).partState = .quiescing := by decide +kernel

/-- QUIESCING with an OPEN slot and nothing left in the intake: the RESTART demand closes it (R105). -/
def restartDemand : State := { quiescing with slots := oneOpen, openOrder := [3] }

theorem test_meets_Settling_restart :
    restartDemand.SlotLaw ∧ restartDemand.partState = .quiescing ∧ restartDemand.intake = [] ∧
    ((restartDemand.settle []).slot 3).reason = .restart ∧ (restartDemand.settle []).openOrder = [] ∧
    ((restartDemand.settle [⟨.retire, [3]⟩]).slot 3).reason = .retire ∧
    (restartDemand.settle []).partState = .quiescing :=
  ⟨State.slotLaw_of_check _ (by decide +kernel), by decide +kernel, by decide +kernel, by decide +kernel,
    by decide +kernel, by decide +kernel, by decide +kernel⟩

/-- A drain that ends while QUIESCING goes on (R22): a posted write is still outstanding. -/
theorem test_meets_Settling_drainInQuiescing :
    let s : State := { inState .draining with
      partState := .quiescing
      ready := false
      posted := [⟨0, 0x20000000#32, 3⟩]
      tags := served.tags.set 0 (some ⟨.forward, .write, 0x20000000#32, .outstandingWrite⟩) }
    (s.settle []).aperture 0 = Aperture.cleared ∧ (s.settle []).partState = .quiescing := by decide +kernel

/-- A head of the forward queue in a state, behind `busy`'s intake or an empty one. -/
def withHead (st : ForwardState) (prior : Option PriorSet) (snapshot : List SlotIdx) (s : State) : State :=
  { s with forward := [⟨.write, 1, line0, 1, firstOn, prior, [⟨line0, .unissued⟩], snapshot, st, ReadBuffer.blank⟩] }

def headAfter (st : ForwardState) (prior : Option PriorSet) (snapshot : List SlotIdx) (causes : List Cause) :
    Option (ForwardState × List SlotIdx) :=
  ((withHead st prior snapshot busy).settle causes).forward.head?.map (fun e => (e.state, e.snapshot))

/-- A new head, unguarded, waiting or at its snapshot; one in GUARD_PRIOR whose prior set empties, in an event with causes
of its own; and one in GUARD_SLOTS with and without a slot left. -/
theorem test_meets_SettlingAdvancesTheHead :
    (withHead .behind none [] busy).SlotLaw ∧ (withHead .guardPrior (some ⟨0, none⟩) [] busy).SlotLaw ∧
    headAfter .behind none [] [] = some (.issuing, []) ∧
    headAfter .behind (some ⟨1, none⟩) [] [] = some (.guardPrior, []) ∧
    headAfter .behind (some ⟨0, none⟩) [] [] = some (.guardSlots, [3]) ∧
    headAfter .guardPrior (some ⟨1, none⟩) [] [] = some (.guardPrior, []) ∧
    headAfter .guardPrior (some ⟨0, none⟩) [] [⟨.retire, [3]⟩] = some (.guardSlots, [3]) ∧
    headAfter .guardSlots (some ⟨0, none⟩) [] [] = some (.issuing, []) ∧
    headAfter .guardSlots (some ⟨0, none⟩) [5] [] = some (.guardSlots, [5]) ∧
    headAfter .issuing (some ⟨0, none⟩) [] [] = some (.issuing, []) ∧
    ((withHead .guardPrior (some ⟨0, none⟩) [] served).settle []).forward.map (·.state) = [.issuing] :=
  ⟨State.slotLaw_of_check _ (by decide +kernel), State.slotLaw_of_check _ (by decide +kernel), by decide +kernel,
    by decide +kernel, by decide +kernel, by decide +kernel, by decide +kernel, by decide +kernel, by decide +kernel,
    by decide +kernel, by decide +kernel⟩

theorem test_meets_SettlingAdvancesTheHead_reason :
    (((withHead .guardPrior (some ⟨0, none⟩) [] busy).settle []).slot 3).reason = .guard ∧
    (((withHead .guardPrior (some ⟨0, none⟩) [] busy).settle [⟨.retire, [3]⟩]).slot 3).reason = .retire ∧
    (withHead .guardPrior (some ⟨0, none⟩) [] busy).slotsHolding (linesOfRange line0 1) = [3] := by decide +kernel

/-- The gather engine in a state, with an entry of line 0 in place 2 and of line 1 in place 0, both with a prior set. -/
def gatherWith (g : Gather) (st : EntryState) (order : List PlaceIdx) (boundary : Nat) : State :=
  { busy with
    gather := g
    queuedOrder := order
    tags := busy.tags.set 4 none
    places := (served.places.set 2 (some { entryOf 0x50000000#32 st none with prior := ⟨boundary, none⟩ })).set 0
      (some { entryOf 0x50000080#32 .queued none with prior := ⟨boundary, none⟩ }) }

def gatherAfter (g : Gather) (st : EntryState) (order : List PlaceIdx) (boundary : Nat) : Gather × List PlaceIdx :=
  let t := (gatherWith g st order boundary).settle []
  (t.gather, t.queuedOrder)

/-- The entry taken is the oldest QUEUED one, whatever its place (R118); it waits for its prior set, for its slots, or
reads at once (R119). -/
theorem test_meets_SettlingAdvancesTheGather :
    (gatherWith .idle .queued [2, 0] 0).SlotLaw ∧ (gatherWith (.priorWait 2) .gathering [0] 0).SlotLaw ∧
    gatherAfter .idle .queued [] 0 = (.idle, []) ∧
    gatherAfter .idle .queued [2, 0] 1 = (.priorWait 2, [0]) ∧
    gatherAfter .idle .queued [2, 0] 0 = (.slotWait 2 [3], [0]) ∧
    gatherAfter .idle .queued [0, 2] 0 = (.reading 0 (ReadJob.start [0x90000080#32]), [2]) ∧
    gatherAfter (.priorWait 2) .gathering [0] 1 = (.priorWait 2, [0]) ∧
    gatherAfter (.priorWait 2) .gathering [0] 0 = (.slotWait 2 [3], [0]) ∧
    gatherAfter (.slotWait 2 [5]) .gathering [0] 0 = (.slotWait 2 [5], [0]) ∧
    gatherAfter (.slotWait 2 []) .gathering [0] 0 = (.reading 2 (ReadJob.start [line0]), [0]) ∧
    gatherAfter (.reading 2 (ReadJob.start [line0])) .gathering [0] 0 = (.reading 2 (ReadJob.start [line0]), [0]) :=
  ⟨State.slotLaw_of_check _ (by decide +kernel), State.slotLaw_of_check _ (by decide +kernel), by decide +kernel,
    by decide +kernel, by decide +kernel, by decide +kernel, by decide +kernel, by decide +kernel, by decide +kernel,
    by decide +kernel, by decide +kernel⟩

theorem test_meets_SettlingAdvancesTheGather_reason :
    (((gatherWith .idle .queued [2, 0] 0).settle []).slot 3).reason = .gather ∧
    (((gatherWith .idle .queued [2, 0] 0).settle []).place 2).map (·.state) = some .gathering ∧
    (((gatherWith .idle .queued [2, 0] 0).settle []).place 0).map (·.state) = some .queued := by decide +kernel

/-! ### The memory port -/

/-- All three sources have a request ready. -/
def contended (holder : Source) (used : Nat) : State :=
  { busy with
    slots := busy.slots.set 6 (mergingSlot 0x90000080#32 1#512 .ready)
    flushOrder := [5, 6]
    gather := .reading 1 ⟨[0x900000C0#32], [4], 2, 0, false⟩
    holder := holder
    used := used }

/-- The head is a READ, or a guarded WRITE with two lines, one granted. -/
def readHead (granted : LineMark) : State :=
  { contended .forward 0 with
    forward := [⟨.read, 1, 0x10000038#32, 2, [], none, [⟨0x10000000#32, granted⟩, ⟨0x10000040#32, .unissued⟩], [],
      .issuing, ReadBuffer.blank⟩]
    port := .holding ⟨1, 0x10000038#32, 2, .passThrough⟩ }

def writeHead (granted : LineMark) : State :=
  { contended .forward 0 with
    forward := [⟨.write, 1, 0x90000038#32, 2, bothOn ++ bothOn, some ⟨0, none⟩,
      [⟨0x90000000#32, granted⟩, ⟨0x90000040#32, .unissued⟩], [], .issuing, ReadBuffer.blank⟩] }

theorem test_meets_Grant :
    (∀ src, running.requesting src = false) ∧ (∀ src, (contended .forward 3).requesting src = true) ∧
    (contended .forward 3).choice = some (.forward, 4) ∧ (contended .forward 4).choice = some (.combine, 1) ∧
    { contended .forward 4 with flushOrder := [5] }.choice = some (.gather, 1) ∧
    { contended .forward 4 with flushOrder := [5], gather := .reading 1 ⟨[], [4], 2, 0, false⟩ }.choice =
      some (.forward, 1) ∧
    (contended .forward 4).freeTag = some 0 ∧ (contended .forward 4).combineOffer = some 6 ∧
    (contended .combine 4).choice = some (.gather, 1) ∧
    (ReadJob.mk [0x900000C0#32] [4] 2 0 false).offer = some 0x900000C0#32 ∧
    (readHead .unissued).choice = some (.forward, 1) ∧
    (readHead .unissued).forwardOffer = some ⟨0x10000000#32, .unissued⟩ ∧
    (readHead (.granted 7)).forwardOffer = some ⟨0x10000040#32, .unissued⟩ ∧
    (writeHead .unissued).choice = some (.forward, 1) ∧
    firstUnissued (markGranted 0 [⟨0x90000000#32, .unissued⟩, ⟨0x90000040#32, .unissued⟩]) ≠ none ∧
    firstUnissued (markGranted 0 [⟨0x90000000#32, .granted 7⟩, ⟨0x90000040#32, .unissued⟩]) = none := by
  refine ⟨by intro src; cases src <;> decide +kernel, by intro src; cases src <;> decide +kernel, ?_⟩
  decide +kernel

/-- An immediate read with a line still to issue is granted the lowest FREE tag (R115). -/
theorem test_meets_Grant_immediate :
    let s : State := { served with
      gather := .immediate (reading [7] [0x90000040#32]) ReadBuffer.blank
      port := .holding ⟨0, 0x50000038#32, 2, .immediate 0⟩
      tags := served.tags.set 7 (some ⟨.gather, .read, line0, .immediateRead⟩) }
    s.choice = some (.gather, 1) ∧ s.freeTag = some 0 ∧ (reading [7] [0x90000040#32]).offer = some 0x90000040#32 ∧
    (after .grant s).tag 0 = some ⟨.gather, .read, 0x90000040#32, .immediateRead⟩ ∧
    (after .grant s).gather.outstanding = [7, 0] ∧ newest (after .grant s) = some (.memory (.lineRead 0 0x90000040#32)) := by
  decide +kernel

/-- A pass-through read with its last line outstanding, and an outstanding write. -/
def returningRead (other : LineMark) (st : ForwardState) : State :=
  { served with
    forward := [⟨.read, 1, 0x10000038#32, 2, [], none, [⟨0x10000000#32, .granted 7⟩, ⟨0x10000040#32, other⟩], [], st,
      ReadBuffer.blank⟩]
    port := .holding ⟨1, 0x10000038#32, 2, .passThrough⟩
    tags := (served.tags.set 7 (some ⟨.forward, .read, 0x10000000#32, .readHead⟩)).set 0
      (some ⟨.forward, .write, 0x20000000#32, .outstandingWrite⟩)
    posted := [⟨0, 0x20000000#32, 3⟩] }

theorem test_meets_PassThroughCompletions :
    (returningRead .unissued .issuing).tag 7 = some ⟨.forward, .read, 0x10000000#32, .readHead⟩ ∧
    (returningRead .unissued .issuing).tag 0 = some ⟨.forward, .write, 0x20000000#32, .outstandingWrite⟩ ∧
    (returningRead .unissued .issuing).posted.find? (fun v => v.tag == 0) = some ⟨0, 0x20000000#32, 3⟩ ∧
    (after (.forwardReadCompletion ⟨7, .ok, 1⟩) (returningRead .unissued .issuing)).forward.length = 1 ∧
    (after (.forwardReadCompletion ⟨7, .ok, 1⟩) (returningRead (.completed .ok) .returning)).port = .idle ∧
    newest (after (.forwardReadCompletion ⟨7, .fault, 1⟩) (returningRead .unissued .issuing)) =
      some (.answer 1 (.error .fault)) ∧
    (after (.forwardWriteCompletion ⟨0, .fault, 0⟩) (returningRead .unissued .issuing)).posted = [] := by decide +kernel

/-- An immediate read of one line, or of two with one still to issue. -/
def immediateRead (unissued : List Addr) : State :=
  { served with
    gather := .immediate (reading [7] unissued) ReadBuffer.blank
    port := .holding ⟨0, 0x50000000#32, 1, .immediate 0⟩
    tags := served.tags.set 7 (some ⟨.gather, .read, line0, .immediateRead⟩) }

theorem test_meets_ImmediateRead :
    (immediateRead []).tag 7 = some ⟨.gather, .read, line0, .immediateRead⟩ ∧
    newest (after (.immediateReadCompletion ⟨7, .ok, 0x0807060504030201#512⟩) (immediateRead [])) =
      some (.answer 0 (.data [1#8, 2#8, 3#8, 4#8, 5#8, 6#8, 7#8, 8#8])) ∧
    (after (.immediateReadCompletion ⟨7, .ok, 0⟩) (immediateRead [0x90000040#32])).port ≠ .idle ∧
    (after (.immediateReadCompletion ⟨7, .fault, 0⟩) (immediateRead [0x90000040#32])).port = .idle := by decide +kernel

/-- The cancelled entry with an immediate read waiting behind it. -/
def cancelledThenHeld : State :=
  { cancelledState with port := .holding ⟨3, 0x50000040#32, 1, .immediate 0⟩ }

theorem test_meets_EntryReads :
    readingState.tag 7 = some ⟨.gather, .read, 0x90000000#32, .place 2⟩ ∧
    readingState.gather = .reading 2 (reading [7] []) ∧
    ((after (.gatherReadCompletion ⟨7, .ok, 0⟩) readingState).place 2).map (·.state) = some .ready ∧
    cancelledState.DeferredLaw ∧ cancelledThenHeld.DeferredLaw ∧
    (after (.cancelledReadCompletion ⟨7, .ok, 0⟩) cancelledState).gather = .idle ∧
    (after (.cancelledReadCompletion ⟨7, .ok, 0⟩) cancelledThenHeld).gather =
      .immediate (ReadJob.start [0x90000040#32]) ReadBuffer.blank :=
  ⟨by decide +kernel, by decide +kernel, by decide +kernel, State.deferredLaw_of_check _ (by decide +kernel),
    State.deferredLaw_of_check _ (by decide +kernel), by decide +kernel, by decide +kernel⟩

/-- Two reads outstanding: a completion that is not the last. -/
theorem test_meets_EntryReads_more :
    ({ readingState with gather := .reading 2 (reading [7, 6] []) }.gather.outstanding.erase 7 ≠ []) ∧
    [7, 6] ≠ [(7 : Tag)] := by decide +kernel

/-! ### The management link -/

theorem test_meets_RefusedFrames :
    (listening running).receiver.phase = .receiving ∧ (0#8 : Byte) ≠ frameCheck codeCommit [0#8] ∧
    commandRow 0x77#8 = none ∧ (listening State.reset).partState ≠ .run ∧
    responseTo (.commit ⟨[0#8], 0#8⟩) running = Result.badCheck.response ∧
    responseTo (.commit (frameOf codeCommit [])) running = Result.length.response ∧
    responseTo (.commit (frameOf codeCommit [0#8, 0#8])) running = Result.length.response ∧
    responseTo (.flashXfer (frameOf codeFlashXfer (List.replicate 34 0#8)) []) running = Result.length.response ∧
    responseTo (.commit (frameOf codeCommit [0#8])) { running with partState := .loading } = Result.busy.response := by
  decide +kernel

theorem test_meets_frameArrives (code : Byte) (args : List Byte) (s : State) :
    (listening s).FrameArrives code (frameOf code args) := ⟨rfl, rfl⟩

/-- Bytes 7 to 14 of a place record (R200) for a READY, a GATHERING and a CANCELLED entry: time to expiry, footprint
lines, lines completed. -/
theorem test_meets_DumpDeferred :
    let fields := fun (s : State) (p : PlaceIdx) =>
      slice (responseTo (.dumpDeferred (frameOf codeDumpDeferred [])) s) (2 + 15 * p.val + 9) 6
    fields { busy with now := 36 } 0 = [0#8, 64#8, 0#8, 0#8, 0#8, 0#8] ∧
    fields { busy with gather := .reading 1 ⟨[], [4], 1, 3, false⟩ } 1 = [0#8, 0#8, 0#8, 1#8, 0#8, 3#8] ∧
    fields busy 2 = [0#8, 0#8, 0#8, 0#8, 0#8, 0#8] ∧
    fields gatheringState 2 = [0#8, 0#8, 0#8, 1#8, 0#8, 0#8] ∧
    fields { cancelledState with gather := .cancelWait 2 ⟨[], [7], 2, 1, true⟩ } 2 = [0#8, 0#8, 0#8, 1#8, 0#8, 1#8] := by
  decide +kernel

theorem test_meets_Stage :
    landscape.image.length = 20 ∧ byteAt (landscape.image.set 15 4#8) 15 = 4#8 ∧
    responseTo (.stage (frameOf codeStage (landscape.image.set 15 4#8))) running = (Result.invalid .field).response ∧
    responseTo (.stage (frameOf codeStage (landscape.image.set 19 2#8))) running = (Result.invalid .field).response ∧
    responseTo (.stage (frameOf codeStage landscape.image)) running = (Result.ok []).response := by decide +kernel

/-- The staged record for a COMMIT. -/
def staged (f : Fields) : State := { served with staging := some f }

theorem test_meets_Commit :
    responseTo (.commit (frameOf codeCommit [8#8])) (staged landscape) = (Result.invalid .index).response ∧
    responseTo (.commit (frameOf codeCommit [7#8])) served = Result.state.response ∧
    responseTo (.commit (frameOf codeCommit [0#8])) (staged landscape) = Result.state.response ∧
    responseTo (.commit (frameOf codeCommit [1#8])) (staged { landscape with pitch := 1#16 }) =
      (Result.invalid .pitchFit).response ∧
    responseTo (.commit (frameOf codeCommit [1#8])) (staged { plain with surfaceBase := 0xA0000000#32 }) =
      (Result.overlap 0).response ∧
    responseTo (.commit (frameOf codeCommit [1#8])) (staged { plain with viewBase := 0x60000000#32 }) =
      (Result.overlap 0).response ∧
    responseTo (.commit (frameOf codeCommit [7#8])) (staged landscape) = (Result.ok []).response := by decide +kernel

/-- Each check of R9 at a value just out of its range, with the earlier ones passing, and the ends of the ranges. -/
theorem test_meets_ValidityChecks :
    { plain with width := 0#16 }.invalid = some .width ∧ { plain with width := 8193#16 }.invalid = some .width ∧
    { plain with height := 0#16 }.invalid = some .height ∧ { plain with height := 8193#16 }.invalid = some .height ∧
    { plain with depth := 3#8 }.invalid = some .depth ∧ { plain with depth := 0#8 }.invalid = some .depth ∧
    { plain with width := 9#16, depth := 4#8 }.invalid = some .rowMultiple ∧
    { plain with pitch := 0#16 }.invalid = some .pitchFit ∧ { plain with pitch := 1025#16 }.invalid = some .pitchFit ∧
    { plain with width := 65#16 }.invalid = some .pitchFit ∧
    { plain with viewBase := 0xFFFFFF40#32 }.invalid = some .viewExtent ∧
    { plain with surfaceBase := 0xFFFFFF40#32 }.invalid = some .surfaceExtent ∧
    { plain with surfaceBase := 0xFFFFFF20#32 }.invalid = some .surfaceExtent ∧
    { plain with viewBase := 0x50000800#32 }.invalid = some .alignment ∧
    { plain with surfaceBase := 0x90000020#32 }.invalid = some .alignment ∧
    { plain with surfaceBase := 0xFFFFFF00#32 }.invalid = none ∧
    { plain with width := 8192#16, pitch := 128#16, height := 1#16 }.invalid = none := by decide +kernel

theorem test_meets_ApertureState :
    (∀ st ∈ [ApertureState.active, .suspended, .draining], ((inState st).aperture 0).state = st) ∧
    (served.aperture 7).state = .empty ∧ (7 : ApertureIdx).val = (7#8 : Byte).toNat ∧ 7 < (8#8 : Byte).toNat ∧
    responseTo (.retire (frameOf codeRetire [0#8])) (inState .suspended) = Result.accepted.response ∧
    responseTo (.retire (frameOf codeRetire [0#8])) (inState .draining) = Result.state.response ∧
    responseTo (.suspend (frameOf codeSuspend [7#8])) served = Result.state.response ∧
    responseTo (.resume (frameOf codeResume [0#8])) (inState .suspended) = (Result.ok []).response := by decide +kernel

theorem test_meets_Fence :
    fencePending.fence.state = .pending ∧ served.fence.state ≠ .pending ∧ fencePending.partState = .run ∧
    responseTo (.fence (frameOf codeFence [])) fencePending = Result.busy.response := by decide +kernel

theorem test_meets_SetTiming :
    (timingOf [0x0F#8, 0xFF#8, 0#8, 16#8, 15#8]).acceptable = true ∧
    (timingOf [0#8, 0#8, 0xFF#8, 0xFF#8, 1#8]).acceptable = true ∧
    (timingOf [0x10#8, 0#8, 0#8, 16#8, 15#8]).acceptable = false ∧
    (timingOf [0#8, 0#8, 0#8, 15#8, 15#8]).acceptable = false ∧
    (timingOf [0#8, 0#8, 0#8, 16#8, 0#8]).acceptable = false ∧
    (timingOf [0#8, 0#8, 0#8, 16#8, 16#8]).acceptable = false ∧
    ((after (.setTiming (frameOf codeSetTiming [0#8, 62#8, 0#8, 16#8, 15#8])) (listening nearly)).slot 3).reason = .age := by
  decide +kernel

theorem test_meets_FlashLink :
    running.PartLaw ∧ { running with session := .deselected }.PartLaw ∧
      { running with session := .selected, flash := ⟨false, true, true⟩ }.PartLaw ∧
      responseTo (.flashXfer (frameOf codeFlashXfer [2#8, 0#8]) [0#8]) { running with session := .deselected } =
        (Result.invalid .field).response ∧
      (List.replicate 32 (0#8 : Byte)).length ≤ 32 ∧ 1 ≤ [(0#8 : Byte)].length :=
  ⟨State.partLaw_of_check _ (by decide +kernel), State.partLaw_of_check _ (by decide +kernel),
    State.partLaw_of_check _ (by decide +kernel), by decide +kernel, by decide, by decide⟩

theorem test_meets_SelectionEdges :
    running.receiver.selHigh = true ∧ running.partState ≠ .held ∧ State.reset.partState = .held ∧
    (listening running).receiver.selHigh = false ∧ (listening running).receiver.phase = .receiving ∧
    { running with receiver := ⟨.trailing, [], false⟩ }.receiver.phase ≠ .receiving := by decide +kernel

theorem test_meets_SelectionEdges_mgDo :
    State.reset.mgDo = .high ∧ running.mgDo = .undriven ∧ (listening running).mgDo = .zeros ∧
    { running with receiver := ⟨.responding [1#8], [], false⟩ }.mgDo = .response [1#8] ∧
    { running with receiver := ⟨.trailing, [], false⟩ }.mgDo = .ones := by decide +kernel

/-! ### Translation and images -/

/-- Footprints (R36): increasing, each line once, at the ends of the window and over two lines of two rows. -/
theorem test_meets_Footprint :
    plain.footprint 0x50000038#32 2 = [0x90000000#32, 0x90000040#32] ∧
    plain.footprint 0x500000F8#32 1 = [0x900000C0#32] ∧
    { plain with orientation := .r180 }.footprint 0x50000038#32 2 = [0x90000080#32, 0x900000C0#32] ∧
    ({ deep 1#8 512#16 with height := 512#16, orientation := .r90 }.footprint 0x50000000#32 1).length = 64 ∧
    { deep 1#8 512#16 with height := 512#16, orientation := .r90 }.valid = true := by decide +kernel

theorem test_meets_Translation :
    plain.valid = true ∧ landscape.valid = true ∧ plain.viewBase.toNat + 255 < plain.viewEnd ∧
    landscape.viewBase.toNat + 59999 < landscape.viewEnd ∧ plain.viewBase.toNat + 128 + 128 ≤ plain.viewEnd ∧
    line0.toNat % 64 = 0 ∧ plain.surfaceBase.toNat ≤ line0.toNat ∧ 0x900000C0 < plain.surfaceEnd ∧
    landscape.inverse (lineOfBit (landscape.storedBit 59999 7)) (posOfBit (landscape.storedBit 59999 7)) =
      some (59999, 7) ∧ landscape.image.length = 20 ∧ fieldsOfImage landscape.image = some landscape := by decide +kernel

end Sys2Proof.Tests
end

section
/-! GET_STATUS (R102, R167): what the answered frame leaves, and the status image read byte by byte (R200). -/

namespace Sys2Proof.Machine

/-! ### The answer -/

theorem exec_getStatus (f : Frame) (s : State) :
    exec (.getStatus f) s = .next (s.takeFrame codeGetStatus f statusDecider) := rfl

/-- Of the four fence states, reading the status ends DONE and DONE_FAULT alone (R102). -/
theorem Fence.reported_eq (f : Fence) :
    f.reported = if f.state = .done ∨ f.state = .doneFault then ⟨.idle, none, false⟩ else f := by
  unfold Fence.reported
  cases f.state <;> simp [Fence.cleared]

/-- GET_STATUS carries no argument byte and is taken in every part state (R165, R166). -/
theorem exec_getStatus_of_arrives (s : State) (f : Frame) (h : s.FrameArrives codeGetStatus f) (hargs : f.args = []) :
    exec (.getStatus f) s = .next
      ({ s with fence := s.fence.reported }.responding codeGetStatus f (.ok s.statusImage)) := by
  rw [exec_getStatus, State.takeFrame_taken s _ f statusDecider _ h commandRow_codeGetStatus (Nat.zero_le _)
    (by simp [hargs]) (.inl rfl) rfl]
  rfl

/-! ### The parts of the image -/

/-- Bit `i` of the set of DRAINING apertures stands for index `i` (R195). -/
theorem State.drainingSet_getLsbD (s : State) (i : ApertureIdx) :
    s.drainingSet.getLsbD i.val = decide ((s.aperture i).state = .draining) := by
  have hi : i.val < 8 := i.isLt
  have hbit : s.drainingSet = bitsOf 8 (fun j => (s.apertures.toList.getD j Aperture.cleared).state == .draining) := rfl
  rw [hbit, bitsOf_getLsbD, Bool.eq_iff_iff, decide_eq_true_iff, State.aperture_eq]
  simp [hi]

/-- An empty place counts in no entry state. -/
theorem State.entryCount_eq (s : State) (st : EntryState) :
    s.entryCount st = (List.finRange 4).countP (fun p => (s.place p).any (fun e => e.state == st)) := by
  refine List.countP_congr fun p _ => ?_
  cases s.place p <;> rfl

theorem bytesOf_one (n : Nat) : bytesOf 1 n = [BitVec.ofNat 8 n] := by simp [bytesOf]

theorem bytesOf_two (n : Nat) : bytesOf 2 n = [BitVec.ofNat 8 (n / 256), BitVec.ofNat 8 n] := by simp [bytesOf]

/-- The status image, byte by byte in the order of R200. -/
theorem State.statusImage_eq (s : State) :
    s.statusImage =
      [s.partState.code, s.outcome.code, s.outcome.records,
        (s.aperture 0).state.code, (s.aperture 1).state.code, (s.aperture 2).state.code, (s.aperture 3).state.code,
        (s.aperture 4).state.code, (s.aperture 5).state.code, (s.aperture 6).state.code, (s.aperture 7).state.code,
        s.drainingSet, countByte s.forward.length, countByte s.intake.length,
        countByte (s.slotCount .free), countByte (s.slotCount .opened), countByte (s.slotCount .merging),
        countByte (s.slotCount .writing),
        countByte (s.entryCount .queued), countByte (s.entryCount .gathering), countByte (s.entryCount .ready),
        countByte (s.entryCount .failed), countByte (s.entryCount .cancelled),
        s.fence.state.code, s.session.code, s.events.flags,
        BitVec.ofNat 8 (s.timing.ageLimit / 256), BitVec.ofNat 8 s.timing.ageLimit,
        BitVec.ofNat 8 (s.timing.discardLimit / 256), BitVec.ofNat 8 s.timing.discardLimit,
        BitVec.ofNat 8 s.timing.allowance] := by
  rw [State.statusImage, bytesOf_two, bytesOf_two, bytesOf_one]
  rfl

theorem State.statusImage_aperture (s : State) (i : ApertureIdx) :
    s.statusImage[3 + i.val]? = some (s.aperture i).state.code := by
  rw [State.statusImage_eq]
  fin_cases i <;> rfl

theorem State.statusImage_records (s : State) (n : Nat) (h : s.outcome = .loaded n) :
    s.statusImage[2]? = some (BitVec.ofNat 8 n) := by
  rw [State.statusImage_eq, h]
  rfl

theorem State.statusImage_slots (s : State) :
    [s.statusImage[14]?, s.statusImage[15]?, s.statusImage[16]?, s.statusImage[17]?] =
      [SlotState.free, .opened, .merging, .writing].map (fun st => some (BitVec.ofNat 8 (s.slotCount st))) := by
  rw [State.statusImage_eq]
  rfl

theorem State.statusImage_entries (s : State) :
    [s.statusImage[18]?, s.statusImage[19]?, s.statusImage[20]?, s.statusImage[21]?, s.statusImage[22]?] =
      [EntryState.queued, .gathering, .ready, .failed, .cancelled].map (fun st => some (BitVec.ofNat 8
        ((List.finRange 4).countP (fun p => (s.place p).any (fun e => e.state == st))))) := by
  simp only [← State.entryCount_eq]
  rw [State.statusImage_eq]
  rfl

/-! ### The statement -/

/-- Settles O48: the row of GET_STATUS takes the frame in every part state, and each clause about the image is read off
its bytes. -/
theorem getStatusReportsAndReadsTheFence : Obligations.GetStatusReportsAndReadsTheFence := by
  intro s f harrives hargs
  have hexec := exec_getStatus_of_arrives s f harrives hargs
  rw [Fence.reported_eq] at hexec
  have himage := s.statusImage_eq
  refine ⟨hexec, ?length, ?part, ?outcome, s.statusImage_records, s.statusImage_aperture,
    ⟨s.drainingSet, ?draining, s.drainingSet_getLsbD⟩, ?forward, ?intake, s.statusImage_slots, s.statusImage_entries,
    ?fence, ?session, ?flags, ?age, ?discard, ?allowance⟩
  all_goals
    rw [himage]
    rfl

end Sys2Proof.Machine
end

section
/-! SUPPORT. The numbers and codes an image carries, read back (R195 to R198). -/

namespace Sys2Proof.Machine

/-! ### Numbers and codes -/

/-- A vector of `k` bytes, written out and read again, is the vector. -/
theorem ofNat_numberOf_bytesOf (k : Nat) (v : BitVec (8 * k)) :
    BitVec.ofNat (8 * k) (numberOf (bytesOf k v.toNat)) = v := by
  have hpow : 256 ^ k = 2 ^ (8 * k) := by rw [Nat.pow_mul]
  rw [numberOf_bytesOf, hpow, Nat.mod_eq_of_lt v.isLt, BitVec.ofNat_toNat, BitVec.setWidth_eq]

@[simp] theorem orientationOf_code (o : Orientation) : orientationOf o.code = some o := by cases o <;> rfl

@[simp] theorem mirrorOf_flagByte (m : Bool) : mirrorOf (flagByte m) = some m := by cases m <;> rfl

@[simp] theorem accessOf_code (a : Access) : accessOf a.code = some a := by cases a <;> rfl

@[simp] theorem surfaceAccessOf_code (a : SurfaceAccess) : surfaceAccessOf a.code = some a := by cases a <;> rfl

@[simp] theorem readOrderingOf_code (r : ReadOrdering) : readOrderingOf r.code = some r := by cases r <;> rfl

/-! ### The aperture image (R198) -/

@[simp] theorem Fields.image_length (f : Fields) : f.image.length = 20 := by simp [Fields.image]

/-- The layout of R198: the five numbers. -/
theorem Fields.image_numbers (f : Fields) :
    slice f.image 0 4 = bytesOf 4 f.viewBase.toNat ∧ slice f.image 4 4 = bytesOf 4 f.surfaceBase.toNat ∧
    slice f.image 8 2 = bytesOf 2 f.pitch.toNat ∧ slice f.image 10 2 = bytesOf 2 f.width.toNat ∧
    slice f.image 12 2 = bytesOf 2 f.height.toNat :=
  ⟨rfl, rfl, rfl, rfl, rfl⟩

/-- The layout of R198: the six single bytes. -/
theorem Fields.image_bytes (f : Fields) :
    byteAt f.image 14 = f.depth ∧ byteAt f.image 15 = f.orientation.code ∧ byteAt f.image 16 = flagByte f.mirror ∧
    byteAt f.image 17 = f.access.code ∧ byteAt f.image 18 = f.surfaceAccess.code ∧
    byteAt f.image 19 = f.readOrdering.code :=
  ⟨rfl, rfl, rfl, rfl, rfl, rfl⟩

/-- An aperture image reads back as the fields it was made from (R196). -/
theorem fieldsOfImage_image (f : Fields) : fieldsOfImage f.image = some f := by
  obtain ⟨hview, hsurface, hpitch, hwidth, hheight⟩ := f.image_numbers
  obtain ⟨hdepth, horientation, hmirror, haccess, hsurfaceAccess, hordering⟩ := f.image_bytes
  have h4 := ofNat_numberOf_bytesOf 4
  have h2 := ofNat_numberOf_bytesOf 2
  simp only [Nat.reduceMul] at h4 h2
  simp [fieldsOfImage, hview, hsurface, hpitch, hwidth, hheight, hdepth, horientation, hmirror, haccess,
    hsurfaceAccess, hordering, h4, h2]

/-! ### The last-fault record in the event image (R200) -/

theorem numberOrNone_map {α : Type} (o : Option α) (number : α → Nat) :
    numberOrNone (o.map number) = o.elim 0xFF#8 (fun x => BitVec.ofNat 8 (number x)) := by
  cases o <;> rfl

@[simp] theorem lastFaultImage_length (o : Option LastFault) : (lastFaultImage o).length = 7 := by
  cases o <;> simp [lastFaultImage]

/-- The record's address stands big-endian in bytes 2 to 5. -/
theorem lastFaultImage_address (r : LastFault) :
    numberOf (slice (lastFaultImage (some r)) 2 4) = r.address.toNat := by
  have hbytes : slice (lastFaultImage (some r)) 2 4 = bytesOf 4 r.address.toNat := rfl
  rw [hbytes, numberOf_bytesOf, show 256 ^ 4 = 2 ^ 32 from rfl, Nat.mod_eq_of_lt r.address.isLt]

end Sys2Proof.Machine
end

section
/-! GET_APERTURE and GET_EVENTS (R168, R175): two reports that change nothing but the receiver. -/

namespace Sys2Proof.Machine

/-! ### GET_APERTURE -/

theorem exec_getAperture (f : Frame) (s : State) :
    exec (.getAperture f) s = .next (s.takeFrame codeGetAperture f apertureDecider) := rfl

/-- GET_APERTURE's rule changes nothing, whatever it answers. -/
theorem apertureDecider_state (args : List Byte) (s : State) : (apertureDecider args s).2 = s := by
  unfold apertureDecider
  split <;> rfl

theorem apertureDecider_result_of_none (args : List Byte) (s : State) (h : indexOf (byteAt args 0) = none) :
    (apertureDecider args s).1 = .invalid .index := by
  simp [apertureDecider, h]

theorem apertureDecider_result_of_some (args : List Byte) (s : State) (i : ApertureIdx)
    (h : indexOf (byteAt args 0) = some i) : (apertureDecider args s).1 = .ok (s.aperture i).report := by
  simp [apertureDecider, h]

/-- GET_APERTURE carries one argument byte; any other frame is answered LENGTH (R165). -/
theorem exec_getAperture_length (s : State) (f : Frame) (h : s.FrameArrives codeGetAperture f)
    (hargs : f.args.length ≠ 1) : exec (.getAperture f) s = .next (s.responding codeGetAperture f .length) := by
  rw [exec_getAperture,
    State.takeFrame_length s _ f apertureDecider _ h commandRow_codeGetAperture (by dsimp only; omega)]

/-- In RUN the frame's answer is that of GET_APERTURE's own rule. -/
theorem exec_getAperture_of_arrives (s : State) (f : Frame) (h : s.FrameArrives codeGetAperture f)
    (hrun : s.partState = .run) (hargs : f.args.length = 1) :
    exec (.getAperture f) s = .next (s.responding codeGetAperture f (apertureDecider f.args s).1) := by
  rw [exec_getAperture, State.takeFrame_taken s _ f apertureDecider _ h commandRow_codeGetAperture hargs.ge hargs.le
    (.inr hrun) (by rw [apertureDecider_state]), apertureDecider_state]

/-! ### GET_EVENTS -/

theorem exec_getEvents (f : Frame) (s : State) :
    exec (.getEvents f) s = .next (s.takeFrame codeGetEvents f eventsDecider) := rfl

/-- GET_EVENTS carries no argument byte and is taken in every part state (R165, R166). -/
theorem exec_getEvents_of_arrives (s : State) (f : Frame) (h : s.FrameArrives codeGetEvents f) (hargs : f.args = []) :
    exec (.getEvents f) s = .next (s.responding codeGetEvents f (.ok s.events.image)) := by
  rw [exec_getEvents, State.takeFrame_taken s _ f eventsDecider _ h commandRow_codeGetEvents (Nat.zero_le _)
    (by simp [hargs]) (.inl rfl) rfl]
  rfl

/-! ### The statement -/

/-- Settles O49: the argument byte decides GET_APERTURE's answer, the image reads back by `fieldsOfImage_image`, and
GET_EVENTS answers the event image, whose record part is `lastFaultImage`. -/
theorem apertureAndEventReportsChangeNothing : Obligations.ApertureAndEventReportsChangeNothing := by
  intro s f
  refine ⟨fun harrives hrun => ⟨exec_getAperture_length s f harrives, fun b hargs => ?aperture⟩,
    fun harrives hargs => ⟨lastFaultImage s.events.lastFault, exec_getEvents_of_arrives s f harrives hargs,
      lastFaultImage_length _, ?emptyRecord, ?record⟩⟩
  case aperture =>
    have hbyte : byteAt f.args 0 = b := by rw [hargs, byteAt_singleton]
    have hexec := exec_getAperture_of_arrives s f harrives hrun (by rw [hargs]; rfl)
    refine ⟨fun hb => ?_, fun i hi => ⟨?_, Fields.image_length _, fieldsOfImage_image _, fun hlaw hempty => ?_⟩⟩
    · rwa [apertureDecider_result_of_none _ _ (by rw [hbyte]; exact (indexOf_eq_none b).2 hb)] at hexec
    · rwa [apertureDecider_result_of_some _ _ i (by rw [hbyte]; exact (indexOf_eq_some b i).2 hi)] at hexec
    · rw [hlaw.emptyValues i hempty]
      rfl
  case emptyRecord =>
    intro hnone
    rw [hnone]
    rfl
  case record =>
    intro r hr
    rw [hr]
    exact ⟨rfl, congrArg some (numberOrNone_map r.aperture _), lastFaultImage_address r,
      congrArg some (numberOrNone_map r.requester _)⟩

end Sys2Proof.Machine
end

section
/-! SUPPORT. The event unit kind by kind: what a raise and a clear do, and when ATTN is high (R173 to R178). -/

namespace Sys2Proof.Machine

/-! ### Kinds -/

/-- The mask of one kind holds that kind's bit alone (R195). -/
theorem EventKind.bit_getLsbD (k : EventKind) (j : Fin 8) : k.bit.getLsbD j.val = decide (j = k.number) := by
  have hj : j.val < 8 := j.isLt
  rw [EventKind.bit, BitVec.getLsbD_shiftLeft, BitVec.getLsbD_one, Bool.eq_iff_iff]
  simp only [hj, Fin.ext_iff, Bool.and_eq_true, Bool.not_eq_true', decide_eq_true_eq, decide_eq_false_iff_not,
    true_and]
  omega

/-- TABLE_FULL and LINK_ERROR are the kinds that leave the last-fault record (R174). -/
theorem EventKind.records_iff (k : EventKind) : k.records = true ↔ k ≠ .tableFull ∧ k ≠ .linkError := by
  cases k <;> simp [EventKind.records]

/-! ### A raise (R173, R174) -/

theorem EventUnit.raise_flags_getLsbD (e : EventUnit) (k : EventKind) (i : Option ApertureIdx) (a : Addr)
    (q : Option Requester) (j : Fin 8) :
    (e.raise k i a q).flags.getLsbD j.val = (e.flags.getLsbD j.val || decide (j = k.number)) := by
  rw [EventUnit.raise, BitVec.getLsbD_or, EventKind.bit_getLsbD]

theorem EventUnit.raise_counts_same (e : EventUnit) (k : EventKind) (i : Option ApertureIdx) (a : Addr)
    (q : Option Requester) : (e.raise k i a q).counts[k.number] = countUp e.counts[k.number] := by
  simp [EventUnit.raise]

theorem EventUnit.raise_lastFault (e : EventUnit) (k : EventKind) (i : Option ApertureIdx) (a : Addr)
    (q : Option Requester) (h : k.records = true) : (e.raise k i a q).lastFault = some ⟨k, i, a, q⟩ := by
  simp [EventUnit.raise, h]

/-! ### A clear (R176) -/

@[simp] theorem EventUnit.clear_attention (e : EventUnit) (m : Byte) : (e.clear m).attention = e.attention := rfl

theorem EventUnit.clear_flags_getLsbD (e : EventUnit) (m : Byte) (k : Fin 8) :
    (e.clear m).flags.getLsbD k.val = (e.flags.getLsbD k.val && !m.getLsbD k.val) := by
  rw [EventUnit.clear, BitVec.getLsbD_and, BitVec.getLsbD_not, decide_eq_true k.isLt, Bool.true_and]

theorem EventUnit.clear_counts (e : EventUnit) (m : Byte) (k : Fin 8) :
    (e.clear m).counts[k] = if m.getLsbD k.val then 0#8 else e.counts[k] := by
  simp [EventUnit.clear, maskNames]

theorem EventUnit.clear_lastFault_none (e : EventUnit) (m : Byte) (h : e.lastFault = none) :
    (e.clear m).lastFault = none := by
  simp [EventUnit.clear, h]

theorem EventUnit.clear_lastFault_some (e : EventUnit) (m : Byte) (r : LastFault) (h : e.lastFault = some r) :
    (e.clear m).lastFault = if m.getLsbD r.kind.number.val then none else some r := by
  simp [EventUnit.clear, h, maskNames]

/-- The empty mask names no kind. -/
theorem EventUnit.clear_zero (e : EventUnit) : e.clear 0#8 = e := by
  obtain ⟨flags, counts, lastFault, attention⟩ := e
  have hflags : flags &&& 255#8 = flags := BitVec.and_allOnes
  cases lastFault <;> simp [EventUnit.clear, maskNames, hflags]

/-! ### ATTN (R178) -/

/-- ATTN is high exactly while some kind has its flag and its mask bit set. -/
theorem EventUnit.attn_iff (e : EventUnit) :
    e.attn = true ↔ ∃ k : Fin 8, e.flags.getLsbD k.val = true ∧ e.attention.getLsbD k.val = true := by
  rw [EventUnit.attn, bne_iff_ne]
  constructor
  · intro hne
    by_contra hnone
    push Not at hnone
    refine hne (BitVec.eq_of_getLsbD_eq fun j hj => ?_)
    have hbit := hnone ⟨j, hj⟩
    rw [BitVec.getLsbD_and, BitVec.getLsbD_zero, Bool.and_eq_false_imp]
    exact fun hflag => Bool.eq_false_of_not_eq_true (hbit hflag)
  · rintro ⟨k, hflag, hmask⟩ hzero
    have hbit := congrArg (fun b : Byte => b.getLsbD k.val) hzero
    rw [BitVec.getLsbD_and, hflag, hmask, BitVec.getLsbD_zero] at hbit
    exact Bool.noConfusion hbit

end Sys2Proof.Machine
end

section
/-! CLEAR_EVENTS (R176). -/

namespace Sys2Proof.Machine

theorem exec_clearEvents (f : Frame) (s : State) :
    exec (.clearEvents f) s = .next (s.takeFrame codeClearEvents f clearDecider) := rfl

/-- CLEAR_EVENTS carries one argument byte; any other frame is answered LENGTH (R165). -/
theorem exec_clearEvents_length (s : State) (f : Frame) (h : s.FrameArrives codeClearEvents f)
    (hargs : f.args.length ≠ 1) : exec (.clearEvents f) s = .next (s.responding codeClearEvents f .length) := by
  rw [exec_clearEvents,
    State.takeFrame_length s _ f clearDecider _ h commandRow_codeClearEvents (by dsimp only; omega)]

/-- CLEAR_EVENTS is taken in every part state and answers OK for every mask (R166, R176). -/
theorem exec_clearEvents_of_arrives (s : State) (f : Frame) (m : Byte) (h : s.FrameArrives codeClearEvents f)
    (hargs : f.args = [m]) : exec (.clearEvents f) s = .next
      ({ s with events := s.events.clear m }.responding codeClearEvents f (.ok [])) := by
  rw [exec_clearEvents, State.takeFrame_taken s _ f clearDecider _ h commandRow_codeClearEvents (by simp [hargs])
    (by simp [hargs]) (.inl rfl) rfl, hargs]
  rfl

/-- The first raise of a kind after its clear counts 1. -/
theorem EventUnit.raise_clear_counts (e : EventUnit) (m : Byte) (k : EventKind) (i : Option ApertureIdx) (a : Addr)
    (q : Option Requester) (hm : m.getLsbD k.number.val = true) :
    ((e.clear m).raise k i a q).counts[k.number] = 1#8 := by
  rw [EventUnit.raise_counts_same, EventUnit.clear_counts, if_pos hm]
  rfl

/-- Settles O51: the event unit left is `EventUnit.clear` of the mask, read kind by kind. -/
theorem clearEventsActsOnTheMask : Obligations.ClearEventsActsOnTheMask := by
  intro s f harrives
  refine ⟨exec_clearEvents_length s f harrives, fun m hargs => ⟨s.events.clear m,
    exec_clearEvents_of_arrives s f m harrives hargs, s.events.clear_attention m, fun k => ⟨?named, ?others⟩,
    s.events.clear_lastFault_some m, s.events.clear_lastFault_none m, ?emptyMask, EventUnit.attn_iff _, ?raised⟩⟩
  case named =>
    intro hm
    rw [EventUnit.clear_flags_getLsbD, EventUnit.clear_counts, hm]
    simp
  case others =>
    intro hm
    rw [EventUnit.clear_flags_getLsbD, EventUnit.clear_counts, hm]
    simp
  case emptyMask =>
    rintro rfl
    exact s.events.clear_zero
  case raised =>
    intro k i a q hm
    refine ⟨?_, s.events.raise_clear_counts m k i a q hm, fun hfull hlink => ?_⟩
    · rw [EventUnit.raise_flags_getLsbD, decide_eq_true rfl, Bool.or_true]
    · exact EventUnit.raise_lastFault _ k i a q (k.records_iff.2 ⟨hfull, hlink⟩)

end Sys2Proof.Machine
end

section
/-! The frame receiver: the edges of MG_SEL_N, the end of a response, and MG_DO (R160, R163, R164). -/

namespace Sys2Proof.Machine

/-! ### A fall of MG_SEL_N -/

/-- Outside HELD a fall begins a frame of which nothing has been received (R160). -/
theorem exec_selectionStart_of_ne_held (s : State) (hhigh : s.receiver.selHigh = true) (h : s.partState ≠ .held) :
    exec .selectionStart s = .next { s with receiver := ⟨.receiving, [], false⟩ } := by
  simp [exec, execSelectionStart, hhigh, h]

/-- In HELD only the level of the line is noted (R164). -/
theorem exec_selectionStart_of_held (s : State) (hhigh : s.receiver.selHigh = true) (h : s.partState = .held) :
    exec .selectionStart s = .next { s with receiver := { s.receiver with selHigh := false } } := by
  simp [exec, execSelectionStart, hhigh, h]

/-! ### A rise of MG_SEL_N -/

theorem exec_shortFrame (s : State) : exec .shortFrame s = .next s.selectionRises := rfl

theorem exec_selectionEnd (s : State) : exec .selectionEnd s = .next s.selectionRises := rfl

/-- A rise in RECEIVING is a short frame: what was kept is dropped and LINK_ERROR raised (R163). -/
theorem State.selectionRises_of_receiving (s : State) (hlow : s.receiver.selHigh = false)
    (h : s.receiver.phase = .receiving) :
    s.selectionRises = { s with receiver := ⟨.idle, [], true⟩ }.raise .linkError none 0 none := by
  simp [State.selectionRises, State.raiseBare, hlow, h]

/-- In every other state of the receiver a rise ends the selection without an event, and what was kept stays
(log 25). -/
theorem State.selectionRises_of_ne_receiving (s : State) (hlow : s.receiver.selHigh = false)
    (h : s.receiver.phase ≠ .receiving) :
    s.selectionRises = { s with receiver := ⟨.idle, s.receiver.kept, true⟩ } := by
  cases hphase : s.receiver.phase with
  | receiving => exact absurd hphase h
  | idle => simp [State.selectionRises, hlow, hphase]
  | responding r => simp [State.selectionRises, hlow, hphase]
  | trailing => simp [State.selectionRises, hlow, hphase]

/-! ### The end of a response -/

theorem exec_responseEnd_of_responding (s : State) (r : List Byte) (h : s.receiver.phase = .responding r) :
    exec .responseEnd s = .next { s with receiver := { s.receiver with phase := .trailing } } := by
  simp [exec, execResponseEnd, h]

/-! ### MG_DO -/

/-- MG_DO by the receiver's state alone, outside HELD (R160). -/
def ReceiverPhase.drives : ReceiverPhase → MgDo
  | .idle => .undriven
  | .receiving => .zeros
  | .responding r => .response r
  | .trailing => .ones

theorem State.mgDo_of_held (s : State) (h : s.partState = .held) : s.mgDo = .high := by
  simp [State.mgDo, h]

theorem State.mgDo_of_ne_held (s : State) (h : s.partState ≠ .held) : s.mgDo = s.receiver.phase.drives := by
  unfold State.mgDo
  split
  next hheld => exact absurd hheld h
  next hphase _ => rw [hphase]; rfl
  next hphase _ => rw [hphase]; rfl
  next hphase _ => rw [hphase]; rfl
  next hphase _ => rw [hphase]; rfl

/-! ### The statement -/

/-- Settles O57: one lemma for each edge in each state of the receiver, and MG_DO by the state outside HELD. -/
theorem selectionEdgesMoveTheReceiver : Obligations.SelectionEdgesMoveTheReceiver := by
  intro s
  refine ⟨fun hhigh => ⟨exec_selectionStart_of_ne_held s hhigh, exec_selectionStart_of_held s hhigh⟩,
    fun hlow => ⟨fun h => ?short, fun h => ?ends⟩, exec_responseEnd_of_responding s, s.mgDo_of_held, fun hheld => ?mgDo⟩
  case short => rw [exec_shortFrame, s.selectionRises_of_receiving hlow h]
  case ends => rw [exec_selectionEnd, s.selectionRises_of_ne_receiving hlow h]
  case mgDo =>
    rw [s.mgDo_of_ne_held hheld]
    exact ⟨fun h => by rw [h]; rfl, fun h => by rw [h]; rfl, fun r h => by rw [h]; rfl, fun h => by rw [h]; rfl⟩

end Sys2Proof.Machine
end

section
/-! FLASH_OPEN and FLASH_CLOSE (R188, R190): the session and the flash link at its opening and its closing (R187). -/

namespace Sys2Proof.Machine

/-! ### The flash link at rest -/

/-- Bringing the link to rest is an output exactly if FL_SEL_N was low (R187). -/
theorem State.flashRest_eq (s : State) : s.flashRest = { s with
    flash := FlashPins.rest
    trace := if s.flash.selN then s.trace else .flashSelect true :: s.trace } := by
  cases h : s.flash.selN <;> simp [State.flashRest, State.flashSelect, State.emit, h]

/-- In RUN the loader has finished (R181). -/
theorem State.PartLaw.loader_idle_of_run {s : State} (h : s.PartLaw) (hrun : s.partState = .run) :
    s.loader = .idle := by
  by_contra hbusy
  have hloading : s.partState = .loading := h.loaderInLoading.1 hbusy
  rw [hrun] at hloading
  cases hloading

/-- In RUN nobody but an open session holds the flash link, so under a CLOSED one it rests (R187). -/
theorem State.PartLaw.flash_rest_of_run_closed {s : State} (h : s.PartLaw) (hrun : s.partState = .run)
    (hclosed : s.session = .closed) : s.flash = FlashPins.rest :=
  h.rests (h.loader_idle_of_run hrun) hclosed

/-! ### FLASH_OPEN -/

theorem exec_flashOpen (f : Frame) (s : State) :
    exec (.flashOpen f) s = .next (s.takeFrame codeFlashOpen f openDecider) := rfl

theorem openDecider_of_closed (args : List Byte) (s : State) (h : s.session = .closed) :
    openDecider args s = (.ok [], { s with session := .deselected }) := by
  simp [openDecider, h]

/-- An open session stays as it is, its select state included. -/
theorem openDecider_of_open (args : List Byte) (s : State) (h : s.session ≠ .closed) :
    openDecider args s = (.busy, s) := by
  cases hsession : s.session with
  | closed => exact absurd hsession h
  | deselected => simp [openDecider, hsession]
  | selected => simp [openDecider, hsession]

theorem openDecider_receiver (args : List Byte) (s : State) : (openDecider args s).2.receiver = s.receiver := by
  by_cases h : s.session = .closed
  · rw [openDecider_of_closed args s h]
  · rw [openDecider_of_open args s h]

/-- FLASH_OPEN carries no argument byte; any other frame is answered LENGTH (R165). -/
theorem exec_flashOpen_length (s : State) (f : Frame) (h : s.FrameArrives codeFlashOpen f) (hargs : f.args ≠ []) :
    exec (.flashOpen f) s = .next (s.responding codeFlashOpen f .length) := by
  rw [exec_flashOpen, State.takeFrame_length s _ f openDecider _ h commandRow_codeFlashOpen
    (.inr (List.length_pos_iff.2 hargs))]

/-- Outside RUN a FLASH_OPEN is answered BUSY (R166). -/
theorem exec_flashOpen_busy (s : State) (f : Frame) (h : s.FrameArrives codeFlashOpen f) (hargs : f.args = [])
    (hrun : s.partState ≠ .run) : exec (.flashOpen f) s = .next (s.responding codeFlashOpen f .busy) := by
  rw [exec_flashOpen, State.takeFrame_busy s _ f openDecider _ h commandRow_codeFlashOpen (Nat.zero_le _)
    (by simp [hargs]) rfl hrun]

/-- In RUN the frame is answered by FLASH_OPEN's own rule. -/
theorem exec_flashOpen_of_arrives (s : State) (f : Frame) (h : s.FrameArrives codeFlashOpen f) (hargs : f.args = [])
    (hrun : s.partState = .run) : exec (.flashOpen f) s = .next
      ((openDecider f.args s).2.responding codeFlashOpen f (openDecider f.args s).1) := by
  rw [exec_flashOpen, State.takeFrame_taken s _ f openDecider _ h commandRow_codeFlashOpen (Nat.zero_le _)
    (by simp [hargs]) (.inr hrun) (openDecider_receiver f.args s)]

/-! ### FLASH_CLOSE -/

theorem exec_flashClose (f : Frame) (s : State) :
    exec (.flashClose f) s = .next (s.takeFrame codeFlashClose f closeDecider) := rfl

theorem State.closeSession_of_closed (s : State) (h : s.session = .closed) : s.closeSession = s := by
  simp [State.closeSession, h]

/-- An open session closes with the link at rest, FL_SEL_N rising if it was low (R187, R190). -/
theorem State.closeSession_of_open (s : State) (h : s.session ≠ .closed) : s.closeSession = { s with
    session := .closed
    flash := FlashPins.rest
    trace := if s.flash.selN then s.trace else .flashSelect true :: s.trace } := by
  cases hsession : s.session with
  | closed => exact absurd hsession h
  | deselected => simp [State.closeSession, hsession, State.flashRest_eq]
  | selected => simp [State.closeSession, hsession, State.flashRest_eq]

theorem State.closeSession_receiver (s : State) : s.closeSession.receiver = s.receiver := by
  by_cases h : s.session = .closed
  · rw [s.closeSession_of_closed h]
  · rw [s.closeSession_of_open h]

/-- In RUN a FLASH_CLOSE is answered OK in every session state (R190). -/
theorem exec_flashClose_of_arrives (s : State) (f : Frame) (h : s.FrameArrives codeFlashClose f) (hargs : f.args = [])
    (hrun : s.partState = .run) :
    exec (.flashClose f) s = .next (s.closeSession.responding codeFlashClose f (.ok [])) := by
  rw [exec_flashClose, State.takeFrame_taken s _ f closeDecider _ h commandRow_codeFlashClose (Nat.zero_le _)
    (by simp [hargs]) (.inr hrun) s.closeSession_receiver]
  rfl

/-! ### The statement -/

/-- Settles O54: each command in a CLOSED and in an open session, and the link resting under a CLOSED one. -/
theorem flashSessionOpensAndCloses : Obligations.FlashSessionOpensAndCloses := by
  intro s f
  refine ⟨fun harrives => ⟨exec_flashOpen_length s f harrives, exec_flashOpen_busy s f harrives,
    fun hargs hrun => ⟨fun hclosed => ⟨?opens, ?staysHigh⟩, fun hopen => ?refuses⟩⟩,
    fun harrives hrun hargs => ⟨fun hclosed => ?closesAgain, fun hopen => ?closes⟩⟩
  case opens => rw [exec_flashOpen_of_arrives s f harrives hargs hrun, openDecider_of_closed f.args s hclosed]; rfl
  case staysHigh =>
    intro hlaw
    rw [hlaw.flash_rest_of_run_closed hrun hclosed]
    rfl
  case refuses => rw [exec_flashOpen_of_arrives s f harrives hargs hrun, openDecider_of_open f.args s hopen]; rfl
  case closesAgain => rw [exec_flashClose_of_arrives s f harrives hargs hrun, s.closeSession_of_closed hclosed]; rfl
  case closes => rw [exec_flashClose_of_arrives s f harrives hargs hrun, s.closeSession_of_open hopen]; rfl

end Sys2Proof.Machine
end

section
/-! Steps, idling and reset: the front command, the microsecond of an empty queue, and the power-on values (log 1,
log 19, R180). -/

namespace Sys2Proof.Machine

/-! ### Every command answers a next state (log 19) -/

theorem execHeaderReceived_next (header : List Byte) (s : State) : ∃ t, execHeaderReceived header s = .next t := by
  unfold execHeaderReceived
  repeat' split
  all_goals exact ⟨_, rfl⟩

theorem execImageReadEnd_next (rest : List Byte) (s : State) : ∃ t, execImageReadEnd rest s = .next t := by
  unfold execImageReadEnd
  repeat' split
  all_goals exact ⟨_, rfl⟩

theorem execChecksEnd_next (s : State) : ∃ t, execChecksEnd s = .next t := by
  unfold execChecksEnd
  repeat' split
  all_goals exact ⟨_, rfl⟩

theorem execInstallEvent_next (s : State) : ∃ t, execInstallEvent s = .next t := by
  unfold execInstallEvent
  split
  all_goals exact ⟨_, rfl⟩

theorem execRequest_next (r : Request) (s : State) : ∃ t, execRequest r s = .next t := by
  unfold execRequest
  repeat' split
  all_goals exact ⟨_, rfl⟩

theorem execPlacement_next (s : State) : ∃ t, execPlacement s = .next t := by
  unfold execPlacement
  split
  all_goals exact ⟨_, rfl⟩

theorem execGrant_next (s : State) : ∃ t, execGrant s = .next t := by
  unfold execGrant
  split
  all_goals exact ⟨_, rfl⟩

theorem execAgeExpiry_next (k : SlotIdx) (s : State) : ∃ t, execAgeExpiry k s = .next t := by
  unfold execAgeExpiry
  split
  all_goals exact ⟨_, rfl⟩

theorem execDiscardExpiry_next (p : PlaceIdx) (s : State) : ∃ t, execDiscardExpiry p s = .next t := by
  unfold execDiscardExpiry
  split
  all_goals exact ⟨_, rfl⟩

theorem execResponseEnd_next (s : State) : ∃ t, execResponseEnd s = .next t := by
  unfold execResponseEnd
  split
  all_goals exact ⟨_, rfl⟩

/-- Settles O3: the ten commands whose meaning branches are the lemmas above, and every other meaning is a `.next` as it
is written. -/
theorem everyCommandAnswersNext : Obligations.EveryCommandAnswersNext := by
  intro c s
  cases c with
  | headerReceived header => exact execHeaderReceived_next header s
  | imageReadEnd rest => exact execImageReadEnd_next rest s
  | checksEnd => exact execChecksEnd_next s
  | installEvent => exact execInstallEvent_next s
  | request r => exact execRequest_next r s
  | placement => exact execPlacement_next s
  | grant => exact execGrant_next s
  | ageExpiry k => exact execAgeExpiry_next k s
  | discardExpiry p => exact execDiscardExpiry_next p s
  | responseEnd => exact execResponseEnd_next s
  | _ => exact ⟨_, rfl⟩

/-! ### The front command and idling -/

theorem step_withPending_cons (c : Instr) (rest : List Instr) (s : State) :
    step (s.withPending (c :: rest)) = exec c (s.withPending rest) := rfl

/-- Settles O1. -/
theorem stepTakesFrontCommand : Obligations.StepTakesFrontCommand := step_withPending_cons

theorem step_of_idle (s : State) (h : s.pending = []) : step s = .next (s.passTime (s.now + 1)) := by
  simp only [step, h]
  rfl

/-- A slot that a passage of time to `t` ages is an OPEN one of an age limit, whose deadline is at or before `t` (R85). -/
theorem State.mem_agedBy (s : State) (t : Nat) (k : SlotIdx) :
    k ∈ s.agedBy t ↔ k ∈ s.openOrder ∧ s.timing.ageLimit ≠ 0 ∧ (s.slot k).openTime + s.timing.ageLimit ≤ t := by
  by_cases h : s.timing.ageLimit = 0 <;> simp [State.agedBy, State.ageDeadline, h]

theorem reasonFor_age_nil (k : SlotIdx) : reasonFor [⟨.age, []⟩] k = none := by
  simp [reasonFor, reasonOrder, namedFor]

/-- The drain tests change nothing while no drain condition holds (R19). -/
theorem State.drainTests_of_none (s : State) (h : ∀ i, s.drained i = false) : s.drainTests = s := by
  have none : ∀ l : List ApertureIdx, l.foldl State.drainTest s = s := by
    intro l
    induction l with
    | nil => rfl
    | cons i l ih => rw [List.foldl_cons, State.drainTest, if_neg (by simp [h i]), ih]
  exact none _

/-- Time that passes while it reaches nothing is all that changes. -/
theorem State.passTime_of_nothing (s : State) (t : Nat) (hslots : ∀ k, k ∉ ({ s with now := t } : State).agedBy t)
    (hplaces : ∀ p, p ∉ ({ s with now := t } : State).expiredBy t) (hdrains : ∀ i, s.drained i = false) :
    s.passTime t = { s with now := t } := by
  have close : ({ s with now := t } : State).closeFor [⟨.age, ({ s with now := t } : State).agedBy t⟩] =
      { s with now := t } := by
    rw [List.eq_nil_iff_forall_not_mem.mpr hslots]
    exact State.closeFor_of_none _ _ (fun k _ => reasonFor_age_nil k)
  unfold State.passTime
  dsimp only
  rw [close, List.eq_nil_iff_forall_not_mem.mpr hplaces]
  exact State.drainTests_of_none { s with now := t } hdrains

/-- Settles O2: under its hypotheses the microsecond reaches no deadline, no expiry time and no drain. -/
theorem idleStepPassesOneMicrosecond : Obligations.IdleStepPassesOneMicrosecond := by
  intro s hidle hslots hplaces hdrains
  rw [step_of_idle s hidle, s.passTime_of_nothing (s.now + 1) ?slots ?places hdrains]
  case slots =>
    intro k hk
    obtain ⟨hopen, hlimit, hreached⟩ := (State.mem_agedBy _ _ _).mp hk
    rcases hslots k hopen with hzero | hlater
    · exact hlimit hzero
    · exact absurd hreached (Nat.not_le.mpr hlater)
  case places =>
    intro p hp
    obtain ⟨e, x, he, hx, hle⟩ := (State.mem_expiredBy _ _ _).mp hp
    exact absurd hle (Nat.not_le.mpr (hplaces p e x he hx))

/-! ### Reset -/

@[simp] theorem State.reset_aperture (i : ApertureIdx) : State.reset.aperture i = Aperture.cleared := by
  simp [State.aperture, State.reset]

@[simp] theorem State.reset_slot (k : SlotIdx) : State.reset.slot k = Slot.cleared := by
  simp [State.slot, State.reset]

@[simp] theorem State.reset_place (p : PlaceIdx) : State.reset.place p = none := by
  simp [State.place, State.reset]

@[simp] theorem State.reset_tag (t : Tag) : State.reset.tag t = none := by
  simp [State.tag, State.reset]

theorem EventUnit.cleared_counts (k : Fin 8) : EventUnit.cleared.counts[k] = 0#8 := by
  simp [EventUnit.cleared]

/-- Settles O4: the single fields by evaluation, the numbered things by what reset holds at every number. -/
theorem resetStateHoldsPowerOnValues : Obligations.ResetStateHoldsPowerOnValues := by
  refine ⟨rfl, rfl, rfl, rfl, rfl, rfl, State.reset_aperture, rfl, rfl, rfl, rfl, rfl, fun k => ?slot, rfl, rfl, rfl,
    State.reset_place, rfl, rfl, rfl, rfl, State.reset_tag, rfl, rfl, rfl, rfl, EventUnit.cleared_counts, rfl, rfl, rfl,
    rfl, rfl⟩
  case slot =>
    rw [State.reset_slot]
    exact ⟨rfl, rfl, rfl, rfl, rfl, rfl, rfl⟩

/-- Settles O5: each law by its computed check. -/
theorem resetStateKeepsEveryLaw : Obligations.ResetStateKeepsEveryLaw where
  part := State.partLaw_of_check _ (by decide +kernel)
  settings := State.settingsLaw_of_check _ (by decide +kernel)
  table := State.tableLaw_of_check _ (by decide +kernel)
  intake := State.intakeLaw_of_check _ (by decide +kernel)
  slots := State.slotLaw_of_check _ (by decide +kernel)
  fence := State.fenceLaw_of_check _ (by decide +kernel)
  deferred := State.deferredLaw_of_check _ (by decide +kernel)
  forward := State.forwardLaw_of_check _ (by decide +kernel)

end Sys2Proof.Machine
end

section
/-! SUPPORT. The boot image item by item: the header's tests (R182), the four checks of an image (R183), and the
installation of its records (R184). -/

namespace Sys2Proof.Machine

/-! ### The tests of the header (R182) -/

theorem Header.verdict_blank (h : Header) (hm : h.magic = 0xFFFFFFFF#32) : h.verdict = .blank := if_pos hm

theorem Header.verdict_magic (h : Header) (hb : h.magic ≠ 0xFFFFFFFF#32) (hm : h.magic ≠ 0x554C564E#32) :
    h.verdict = .corrupt 0 := by
  rw [Header.verdict, if_neg hb, if_pos hm]

section
variable (h : Header) (hm : h.magic = 0x554C564E#32)
include hm

/-- Past the magic number the tests go on with the version. -/
theorem Header.verdict_past_magic : h.verdict =
    if h.version ≠ 0x01#8 then .corrupt 4
    else if 8 < h.recordCount.toNat then .corrupt 5
    else if 4095 < h.ageLimit.toNat then .corrupt 6
    else if h.discardLimit.toNat < 16 then .corrupt 8
    else if h.allowance.toNat < 1 ∨ 15 < h.allowance.toNat then .corrupt 10
    else .goesOn := by
  have hblank : h.magic ≠ 0xFFFFFFFF#32 := by
    rw [hm]
    decide
  rw [Header.verdict, if_neg hblank, if_neg (not_not_intro hm)]

theorem Header.verdict_version (hv : h.version ≠ 1#8) : h.verdict = .corrupt 4 := by
  rw [h.verdict_past_magic hm, if_pos hv]

theorem Header.verdict_count (hv : h.version = 1#8) (hc : 8 < h.recordCount.toNat) : h.verdict = .corrupt 5 := by
  rw [h.verdict_past_magic hm, if_neg (not_not_intro hv), if_pos hc]

/-- Past the record count the tests go on with the settings. -/
theorem Header.verdict_past_count (hv : h.version = 1#8) (hc : h.recordCount.toNat ≤ 8) : h.verdict =
    if 4095 < h.ageLimit.toNat then .corrupt 6
    else if h.discardLimit.toNat < 16 then .corrupt 8
    else if h.allowance.toNat < 1 ∨ 15 < h.allowance.toNat then .corrupt 10
    else .goesOn := by
  rw [h.verdict_past_magic hm, if_neg (not_not_intro hv), if_neg (Nat.not_lt.mpr hc)]

end

/-- What a header that passes holds. -/
theorem Header.passes_ranges (h : Header) (hp : h.passes) :
    h.recordCount.toNat ≤ 8 ∧ h.ageLimit.toNat ≤ 4095 ∧ 16 ≤ h.discardLimit.toNat ∧
      1 ≤ h.allowance.toNat ∧ h.allowance.toNat ≤ 15 := by
  unfold Header.passes Header.verdict at hp
  grind

/-! ### Check 2: the records in flash order -/

/-- A boot record's fields have passed the checks of R9. -/
theorem bootRecordOf_valid (bytes : List Byte) (r : BootRecord) (h : bootRecordOf bytes = some r) :
    r.fields.valid = true := by
  simp only [bootRecordOf, Option.pure_def, Option.bind_eq_bind, Option.bind_eq_some_iff] at h
  obtain ⟨i, -, f, -, hif⟩ := h
  split at hif
  · cases hif
    assumption
  · cases hif

theorem checkRecords_bad (image : List Byte) (n todo : Nat)
    (h : bootRecordOf (recordBytes image (n - (todo + 1))) = none) :
    checkRecords image n (todo + 1) = .error (n - (todo + 1)) := by
  simp [checkRecords, h]

theorem checkRecords_later (image : List Byte) (n todo k : Nat) (r : BootRecord)
    (h : bootRecordOf (recordBytes image (n - (todo + 1))) = some r) (hrest : checkRecords image n todo = .error k) :
    checkRecords image n (todo + 1) = .error k := by
  simp [checkRecords, h, hrest]

theorem checkRecords_cons (image : List Byte) (n todo : Nat) (r : BootRecord) (rs : List BootRecord)
    (h : bootRecordOf (recordBytes image (n - (todo + 1))) = some r) (hrest : checkRecords image n todo = .ok rs) :
    checkRecords image n (todo + 1) = .ok (r :: rs) := by
  simp [checkRecords, h, hrest]

/-- Records that all pass are handed on in flash order. -/
theorem checkRecords_of_pass (image : List Byte) (n : Nat) (rs : List BootRecord) (todo : Nat) (htodo : todo ≤ n)
    (hlen : rs.length = todo)
    (hpass : ∀ j r, rs[j]? = some r → bootRecordOf (recordBytes image (n - todo + j)) = some r) :
    checkRecords image n todo = .ok rs := by
  induction rs generalizing todo with
  | nil =>
    subst hlen
    rfl
  | cons r rs ih =>
    subst hlen
    have hrest : checkRecords image n rs.length = .ok rs := by
      refine ih rs.length (by simp at htodo; omega) rfl fun j q hq => ?_
      have hshift : n - (r :: rs).length + (j + 1) = n - rs.length + j := by simp at htodo ⊢; omega
      rw [← hshift]
      exact hpass (j + 1) q (by simpa using hq)
    have hfirst : bootRecordOf (recordBytes image (n - (rs.length + 1))) = some r := hpass 0 r rfl
    exact checkRecords_cons image n rs.length r rs hfirst hrest

/-- The first record that fails is the one reported. -/
theorem checkRecords_of_fail (image : List Byte) (n k todo : Nat) (htodo : todo ≤ n) (hk : n - todo ≤ k) (hkn : k < n)
    (hbad : bootRecordOf (recordBytes image k) = none)
    (hgood : ∀ j, n - todo ≤ j → j < k → bootRecordOf (recordBytes image j) ≠ none) :
    checkRecords image n todo = .error k := by
  induction todo with
  | zero => omega
  | succ todo ih =>
    by_cases hnow : n - (todo + 1) = k
    · subst hnow
      exact checkRecords_bad image n todo hbad
    · obtain ⟨r, hr⟩ := Option.ne_none_iff_exists'.mp (hgood (n - (todo + 1)) le_rfl (by omega))
      exact checkRecords_later image n todo k r hr
        (ih (by omega) (by omega) fun j hj hjk => hgood j (by omega) hjk)

/-- Records that have been handed on are as many as were to be checked, and each passes the checks of R9. -/
theorem checkRecords_ok (image : List Byte) (n todo : Nat) (rs : List BootRecord)
    (h : checkRecords image n todo = .ok rs) : rs.length = todo ∧ ∀ r ∈ rs, r.fields.valid = true := by
  induction todo generalizing rs with
  | zero =>
    cases h
    simp
  | succ todo ih =>
    rcases hr : bootRecordOf (recordBytes image (n - (todo + 1))) with _ | r
    · rw [checkRecords_bad image n todo hr] at h
      cases h
    · rcases htail : checkRecords image n todo with k | tail
      · rw [checkRecords_later image n todo k r hr htail] at h
        cases h
      · rw [checkRecords_cons image n todo r tail hr htail] at h
        cases h
        obtain ⟨hlen, hvalid⟩ := ih tail htail
        refine ⟨by rw [List.length_cons, hlen], fun q hq => ?_⟩
        rcases List.mem_cons.mp hq with rfl | hq
        · exact bootRecordOf_valid _ _ hr
        · exact hvalid q hq

/-! ### Checks 3 and 4: the first record that clashes with an earlier one -/

/-- No clash: no record clashes with one before it. -/
theorem firstClash_eq_none (bad : BootRecord → BootRecord → Bool) (before : List BootRecord) (k : Nat)
    (rs : List BootRecord) : firstClash bad before k rs = none ↔
      (∀ e ∈ before, ∀ r ∈ rs, bad e r = false) ∧ rs.Pairwise (fun a b => bad a b = false) := by
  induction rs generalizing before k with
  | nil => simp [firstClash]
  | cons r rs ih =>
    rw [firstClash]
    split
    next hclash =>
      obtain ⟨e, he, hbad⟩ := List.any_eq_true.mp hclash
      simp only [reduceCtorEq, false_iff, not_and]
      intro hnone
      rw [hnone e he r List.mem_cons_self] at hbad
      cases hbad
    next hfine =>
      rw [ih]
      have hr : ∀ e ∈ before, bad e r = false := by simpa using hfine
      simp only [List.mem_cons, forall_eq_or_imp, List.pairwise_cons]
      constructor
      · rintro ⟨⟨hnext, hbefore⟩, hrest⟩
        exact ⟨fun e he => ⟨hr e he, hbefore e he⟩, hnext, hrest⟩
      · rintro ⟨hbefore, hnext, hrest⟩
        exact ⟨⟨hnext, fun e he => (hbefore e he).2⟩, hrest⟩

/-- Records with no clash among them, by their numbers. -/
theorem firstClash_none_of_numbers (bad : BootRecord → BootRecord → Bool) (rs : List BootRecord)
    (h : ∀ (j m : Nat) (a b : BootRecord), j < m → rs[j]? = some a → rs[m]? = some b → bad a b = false) :
    firstClash bad [] 0 rs = none := by
  rw [firstClash_eq_none]
  refine ⟨fun e he => absurd he List.not_mem_nil, List.pairwise_iff_getElem.mpr fun j m hj hm hjm => ?_⟩
  exact h j m _ _ hjm (List.getElem?_eq_getElem hj) (List.getElem?_eq_getElem hm)

/-- The first record that clashes with one before it is the one reported. -/
theorem firstClash_eq_some (bad : BootRecord → BootRecord → Bool) (before : List BootRecord) (n k : Nat)
    (rs : List BootRecord) (b : BootRecord) (hb : rs[k]? = some b)
    (hclash : (∃ e ∈ before, bad e b = true) ∨ ∃ j a, j < k ∧ rs[j]? = some a ∧ bad a b = true)
    (hfirst : ∀ m c, m < k → rs[m]? = some c →
      (∀ e ∈ before, bad e c = false) ∧ ∀ j a, j < m → rs[j]? = some a → bad a c = false) :
    firstClash bad before n rs = some (n + k) := by
  induction rs generalizing before n k with
  | nil => simp at hb
  | cons r rs ih =>
    rw [firstClash]
    cases k with
    | zero =>
      simp only [List.getElem?_cons_zero, Option.some.injEq] at hb
      subst hb
      rcases hclash with ⟨e, he, hbad⟩ | ⟨j, a, hj, -⟩
      · rw [if_pos (List.any_eq_true.mpr ⟨e, he, hbad⟩), Nat.add_zero]
      · exact absurd hj (Nat.not_lt_zero j)
    | succ k =>
      have hhead := (hfirst 0 r (Nat.succ_pos k) rfl).1
      rw [if_neg (by simpa using hhead), ih (r :: before) (n + 1) k (by simpa using hb) ?clash ?first,
        Nat.add_right_comm, Nat.add_assoc]
      case clash =>
        rcases hclash with ⟨e, he, hbad⟩ | ⟨j, a, hj, ha, hbad⟩
        · exact .inl ⟨e, List.mem_cons_of_mem _ he, hbad⟩
        · cases j with
          | zero =>
            simp only [List.getElem?_cons_zero, Option.some.injEq] at ha
            exact .inl ⟨a, by simp [ha], hbad⟩
          | succ j => exact .inr ⟨j, a, by omega, by simpa using ha, hbad⟩
      case first =>
        intro m c hm hc
        obtain ⟨hbefore, hrest⟩ := hfirst (m + 1) c (by omega) (by simpa using hc)
        refine ⟨fun e he => ?_, fun j a hj ha => hrest (j + 1) a (by omega) (by simpa using ha)⟩
        rcases List.mem_cons.mp he with rfl | he
        · exact hrest 0 e (Nat.succ_pos m) rfl
        · exact hbefore e he

theorem sameIndex_eq_false (a b : BootRecord) : sameIndex a b = false ↔ a.index ≠ b.index := by
  simp [sameIndex]

theorem sameIndex_eq_true (a b : BootRecord) : sameIndex a b = true ↔ a.index = b.index := by
  simp [sameIndex]

theorem recordsOverlap_eq_false (a b : BootRecord) : recordsOverlap a b = false ↔ a.fields.Apart b.fields := by
  simp [recordsOverlap, Fields.Apart]

theorem recordsOverlap_eq_true (a b : BootRecord) : recordsOverlap a b = true ↔ ¬ a.fields.Apart b.fields := by
  rw [← recordsOverlap_eq_false, Bool.not_eq_false]

/-! ### The four checks (R183) -/

/-- Check 1 of R183: the CRC-32 of the image holds. -/
def checkSumHolds (image : List Byte) : Prop :=
  crc32 (image.take (16 + 24 * (headerOf image).recordCount.toNat)) =
    BitVec.ofNat 32 (numberOf (slice image (16 + 24 * (headerOf image).recordCount.toNat) 4))

theorem checkSumHolds.eq {image : List Byte} (h : checkSumHolds image) :
    crc32 (image.take (16 + 24 * (headerOf image).recordCount.toNat)) =
      BitVec.ofNat 32 (numberOf (slice image (16 + 24 * (headerOf image).recordCount.toNat) 4)) := h

theorem checkImage_of_badSum (image : List Byte) (h : ¬ checkSumHolds image) :
    checkImage image = .error (16 + 24 * (headerOf image).recordCount.toNat) := if_pos h

theorem checkImage_of_badRecord (image : List Byte) (k : Nat) (h : checkSumHolds image)
    (hk : checkRecords image (headerOf image).recordCount.toNat (headerOf image).recordCount.toNat = .error k) :
    checkImage image = .error (16 + 24 * k) := by
  simp only [checkImage, if_neg (not_not_intro h.eq), hk]

section
variable (image : List Byte) (rs : List BootRecord) (hsum : checkSumHolds image)
  (hrs : checkRecords image (headerOf image).recordCount.toNat (headerOf image).recordCount.toNat = .ok rs)
include hsum hrs

theorem checkImage_of_sameIndex (k : Nat) (hk : firstClash sameIndex [] 0 rs = some k) :
    checkImage image = .error (16 + 24 * k) := by
  simp only [checkImage, if_neg (not_not_intro hsum.eq), hrs, hk]

theorem checkImage_of_overlap (k : Nat) (hindex : firstClash sameIndex [] 0 rs = none)
    (hk : firstClash recordsOverlap [] 0 rs = some k) : checkImage image = .error (16 + 24 * k) := by
  simp only [checkImage, if_neg (not_not_intro hsum.eq), hrs, hindex, hk]

theorem checkImage_of_pass (hindex : firstClash sameIndex [] 0 rs = none)
    (hoverlap : firstClash recordsOverlap [] 0 rs = none) : checkImage image = .ok rs := by
  simp only [checkImage, if_neg (not_not_intro hsum.eq), hrs, hindex, hoverlap]

end

/-- What the records of a checked image are (R183). -/
theorem checkImage_ok (image : List Byte) (rs : List BootRecord) (h : checkImage image = .ok rs) :
    rs.length = (headerOf image).recordCount.toNat ∧ (∀ r ∈ rs, r.fields.valid = true) ∧
      rs.Pairwise (fun a b => a.index ≠ b.index ∧ a.fields.Apart b.fields) := by
  unfold checkImage at h
  dsimp only at h
  split at h
  · cases h
  · split at h
    · cases h
    · rename_i recs hrecs
      split at h
      · cases h
      · rename_i hindex
        split at h
        · cases h
        · rename_i hoverlap
          cases h
          obtain ⟨hlen, hvalid⟩ := checkRecords_ok _ _ _ _ hrecs
          refine ⟨hlen, hvalid, ?_⟩
          have hapart := ((firstClash_eq_none _ _ _ _).mp hindex).2.and ((firstClash_eq_none _ _ _ _).mp hoverlap).2
          exact hapart.imp fun {a b} hab =>
            ⟨(sameIndex_eq_false a b).mp hab.1, (recordsOverlap_eq_false a b).mp hab.2⟩

/-! ### Installing the records (R184) -/

theorem State.foldl_installRecord_frame (rs : List BootRecord) (s : State) :
    ∃ a, rs.foldl State.installRecord s = { s with apertures := a } := by
  induction rs generalizing s with
  | nil => exact ⟨s.apertures, rfl⟩
  | cons r rs ih =>
    obtain ⟨a, ha⟩ := ih (s.installRecord r)
    exact ⟨a, ha⟩

/-- An index no record names keeps its aperture. -/
theorem State.foldl_installRecord_aperture_of_not_named (rs : List BootRecord) (s : State) (i : ApertureIdx)
    (h : ∀ r ∈ rs, r.index ≠ i) : (rs.foldl State.installRecord s).aperture i = s.aperture i := by
  induction rs generalizing s with
  | nil => rfl
  | cons r rs ih =>
    rw [List.foldl_cons, ih _ fun q hq => h q (List.mem_cons_of_mem _ hq)]
    exact State.aperture_setAperture_of_ne s r.index i _ (h r List.mem_cons_self)

/-- Of records with different indexes each is installed as ACTIVE. -/
theorem State.foldl_installRecord_aperture (rs : List BootRecord) (s : State)
    (hdistinct : rs.Pairwise (fun a b => a.index ≠ b.index)) (r : BootRecord) (hr : r ∈ rs) :
    (rs.foldl State.installRecord s).aperture r.index = ⟨.active, r.fields, none⟩ := by
  induction rs generalizing s with
  | nil => exact absurd hr List.not_mem_nil
  | cons q rs ih =>
    obtain ⟨hq, hrs⟩ := List.pairwise_cons.mp hdistinct
    rw [List.foldl_cons]
    rcases List.mem_cons.mp hr with rfl | hr
    · rw [State.foldl_installRecord_aperture_of_not_named rs _ _ fun x hx => (hq x hx).symm]
      exact State.aperture_setAperture_self s _ _
    · exact ih _ hrs hr

end Sys2Proof.Machine
end

section
/-! RESET_N and the boot loader's commands (R179 to R185). -/

namespace Sys2Proof.Machine

/-! ### The select line of the flash link -/

/-- FL_SEL_N takes a level, and only an edge is an output. -/
theorem State.flashSelect_eq (s : State) (high : Bool) : s.flashSelect high = { s with
    flash := { s.flash with selN := high }
    trace := if s.flash.selN = high then s.trace else .flashSelect high :: s.trace } := by
  by_cases h : s.flash.selN = high
  · subst h
    simp [State.flashSelect]
  · simp [State.flashSelect, State.emit, h]

/-! ### RESET_N (R179 to R181) -/

/-- Settles O14: `powerOn` with FL_SEL_N's edge by its level, and `enterLoading` from a link at rest. -/
theorem resetLineTakesAndReleasesThePart : Obligations.ResetLineTakesAndReleasesThePart := by
  refine ⟨fun s => ?asserted, fun s hheld hrest => ⟨Config.linkLevel s.freeCount, s.freeCount + 2, ?released⟩⟩
  case asserted =>
    have hpower : exec .resetNAsserted s = .next s.powerOn := rfl
    rw [hpower, State.powerOn, State.flashSelect_eq]
    rfl
  case released =>
    have hload : exec .resetNReleased s = .next s.enterLoading := by
      simp [exec, execResetNReleased, hheld]
    rw [hload]
    simp [State.enterLoading, State.flashSelect, State.flashClocked, State.emit, hrest, FlashPins.rest,
      flashReadCommand]

/-! ### The end of a load (R185) -/

theorem State.loaderFinish_eq (s : State) (o : BootOutcome) (timing : Timing) (attention : Byte) :
    s.loaderFinish o timing attention = s.loadEnds o timing { s.events with attention := attention } := by
  rw [State.loaderFinish, State.flashRest_eq]
  rfl

theorem State.finishBlank_eq (s : State) :
    s.finishBlank = s.loadEnds .blank ⟨64, 2048, 4⟩ { s.events with attention := 0xDF#8 } :=
  s.loaderFinish_eq _ _ _

theorem State.finishCorrupt_eq (s : State) (offset : Nat) :
    s.finishCorrupt offset = s.loadEnds .corrupt ⟨64, 2048, 4⟩ (s.events.bootFault offset) := by
  rw [State.finishCorrupt, State.loaderFinish_eq]
  rfl

/-! ### HEADER_RECEIVED and IMAGE_READ_END (R182) -/

section
variable (s : State) (header : List Byte) (hloader : s.loader = .reading none) (hlen : header.length = 16)
include hloader hlen

theorem exec_headerReceived_blank (hv : (headerOf header).verdict = .blank) :
    exec (.headerReceived header) s = .next s.finishBlank := by
  simp [exec, execHeaderReceived, hloader, hlen, hv]

theorem exec_headerReceived_corrupt (offset : Nat) (hv : (headerOf header).verdict = .corrupt offset) :
    exec (.headerReceived header) s =
      .next (s.loadEnds .corrupt ⟨64, 2048, 4⟩ (s.events.bootFault offset)) := by
  simp [exec, execHeaderReceived, hloader, hlen, hv, State.finishCorrupt_eq]

theorem exec_headerReceived_goesOn (hv : (headerOf header).verdict = .goesOn) :
    exec (.headerReceived header) s = .next { s with loader := .reading (some header) } := by
  simp [exec, execHeaderReceived, hloader, hlen, hv]

end

theorem exec_imageReadEnd_reading (s : State) (header rest : List Byte) (hloader : s.loader = .reading (some header))
    (hlen : rest.length = 24 * (headerOf header).recordCount.toNat + 4) :
    exec (.imageReadEnd rest) s =
      .next { s.flashSelect true with loader := .checking (header ++ rest) } := by
  simp [exec, execImageReadEnd, hloader, hlen]

/-- Settles O15: the header's verdict test by test, and FL_SEL_N's level at the end of the read. -/
theorem imageReadFollowsTheHeader : Obligations.ImageReadFollowsTheHeader := by
  refine ⟨fun s h hloader hlen => ?header, fun s h rest hloader hlen => ?image⟩
  case header =>
    have corrupt := exec_headerReceived_corrupt s h hloader hlen
    intro hd ends corruptAt
    refine ⟨fun hblank => ?blank, fun hnb hm => corrupt 0 (hd.verdict_magic hnb hm), fun hm =>
      ⟨fun hv => corrupt 4 (hd.verdict_version hm hv), fun hv hc => corrupt 5 (hd.verdict_count hm hv hc),
        fun hv hc => ?settings⟩⟩
    case blank =>
      show exec (.headerReceived h) s = _
      rw [exec_headerReceived_blank s h hloader hlen (hd.verdict_blank hblank), State.finishBlank_eq]
    case settings =>
      have hverdict := hd.verdict_past_count hm hv hc
      refine ⟨fun hage => corrupt 6 ?_, fun hage hdiscard => corrupt 8 ?_, fun hage hdiscard =>
        ⟨fun hallow => corrupt 10 ?_, fun hallow hmax => exec_headerReceived_goesOn s h hloader hlen ?_⟩⟩
      · rw [hverdict, if_pos hage]
      · rw [hverdict, if_neg (Nat.not_lt.mpr hage), if_pos hdiscard]
      · have hout : hd.allowance.toNat < 1 ∨ 15 < hd.allowance.toNat :=
          hallow.imp_left fun hz => by rw [hz]; decide
        rw [hverdict, if_neg (Nat.not_lt.mpr hage), if_neg (Nat.not_lt.mpr hdiscard), if_pos hout]
      · have hne : hd.allowance.toNat ≠ 0 := fun hz => hallow (BitVec.eq_of_toNat_eq hz)
        have hin : ¬ (hd.allowance.toNat < 1 ∨ 15 < hd.allowance.toNat) := by omega
        rw [hverdict, if_neg (Nat.not_lt.mpr hage), if_neg (Nat.not_lt.mpr hdiscard), if_neg hin]
  case image =>
    rw [exec_imageReadEnd_reading s h rest hloader hlen, State.flashSelect_eq]

/-! ### CHECKS_END (R183) -/

theorem exec_checksEnd_error (s : State) (image : List Byte) (offset : Nat) (hloader : s.loader = .checking image)
    (hc : checkImage image = .error offset) :
    exec .checksEnd s = .next (s.loadEnds .corrupt ⟨64, 2048, 4⟩ (s.events.bootFault offset)) := by
  simp [exec, execChecksEnd, hloader, hc, State.finishCorrupt_eq]

theorem exec_checksEnd_ok (s : State) (image : List Byte) (rs : List BootRecord) (hloader : s.loader = .checking image)
    (hc : checkImage image = .ok rs) :
    exec .checksEnd s = .next { s with loader := .installing (headerOf image) rs } := by
  simp [exec, execChecksEnd, hloader, hc]

/-- Settles O16: the checks of R183 in their order, each from the lemma about what it finds first. -/
theorem checksDecideTheLoad : Obligations.ChecksDecideTheLoad := by
  intro s im hloader n good corrupt
  have error := fun offset => exec_checksEnd_error s im offset hloader
  refine ⟨fun hbad => error _ (checkImage_of_badSum im hbad), fun hgood k hk => ?record, fun hgood rs hlen hpass => ?_⟩
  case record =>
    obtain ⟨hkn, hbad, hearlier⟩ := hk
    exact error _ (checkImage_of_badRecord im k hgood
      (checkRecords_of_fail im n k n le_rfl (by omega) hkn hbad fun j _ hj => hearlier j hj))
  have hrs : checkRecords im n n = .ok rs :=
    checkRecords_of_pass im n rs n le_rfl hlen fun j r hr => by
      rw [Nat.sub_self, Nat.zero_add]
      exact hpass j r hr
  intro twice overlaps
  have noTwice : (∀ k, ¬ twice k) → firstClash sameIndex [] 0 rs = none := fun hnone =>
    firstClash_none_of_numbers sameIndex rs fun j m a b hjm ha hb =>
      (sameIndex_eq_false a b).mpr fun heq => hnone m ⟨j, a, b, hjm, ha, hb, heq⟩
  refine ⟨fun k hk => ?index, fun hnone k hk => ?overlap, fun hnone hapart => ?pass⟩
  case index =>
    obtain ⟨-, ⟨j, a, b, hjk, ha, hb, heq⟩, hearlier⟩ := hk
    have hfirst := firstClash_eq_some sameIndex [] 0 k rs b hb
      (.inr ⟨j, a, hjk, ha, (sameIndex_eq_true a b).mpr heq⟩) fun m c hm hc =>
        ⟨fun e he => absurd he List.not_mem_nil, fun i d hi hd =>
          (sameIndex_eq_false d c).mpr fun hdc => hearlier m hm ⟨i, d, c, hi, hd, hc, hdc⟩⟩
    rw [Nat.zero_add] at hfirst
    exact error _ (checkImage_of_sameIndex im rs hgood hrs k hfirst)
  case overlap =>
    obtain ⟨-, ⟨j, a, b, hjk, ha, hb, hab⟩, hearlier⟩ := hk
    have hfirst := firstClash_eq_some recordsOverlap [] 0 k rs b hb
      (.inr ⟨j, a, hjk, ha, (recordsOverlap_eq_true a b).mpr hab⟩) fun m c hm hc =>
        ⟨fun e he => absurd he List.not_mem_nil, fun i d hi hd =>
          (recordsOverlap_eq_false d c).mpr (not_not.mp fun hdc => hearlier m hm ⟨i, d, c, hi, hd, hc, hdc⟩)⟩
    rw [Nat.zero_add] at hfirst
    exact error _ (checkImage_of_overlap im rs hgood hrs k (noTwice hnone) hfirst)
  case pass =>
    have noOverlap : firstClash recordsOverlap [] 0 rs = none :=
      firstClash_none_of_numbers recordsOverlap rs fun j m a b hjm ha hb =>
        (recordsOverlap_eq_false a b).mpr (not_not.mp fun hab => hapart m ⟨j, a, b, hjm, ha, hb, hab⟩)
    exact exec_checksEnd_ok s im rs hloader (checkImage_of_pass im rs hgood hrs (noTwice hnone) noOverlap)

/-! ### INSTALL_EVENT (R184, R185) -/

theorem exec_installEvent_installing (s : State) (hd : Header) (rs : List BootRecord)
    (hloader : s.loader = .installing hd rs) : exec .installEvent s =
      .next ((rs.foldl State.installRecord s).loaderFinish (.loaded rs.length) hd.timing hd.attention) := by
  simp [exec, execInstallEvent, hloader]

/-- Settles O17: the table is what installing the records one by one leaves. -/
theorem installEventInstallsTheRecords : Obligations.InstallEventInstallsTheRecords := by
  intro s hd rs hloader hdistinct
  obtain ⟨table, htable⟩ := State.foldl_installRecord_frame rs s
  have hat : ∀ i : ApertureIdx, table[i] = (rs.foldl State.installRecord s).aperture i := fun i => by
    rw [htable]
    rfl
  refine ⟨table, fun r hr => ?_, fun i hi => ?_, ?_⟩
  · rw [hat, State.foldl_installRecord_aperture rs s hdistinct r hr]
  · rw [hat, State.foldl_installRecord_aperture_of_not_named rs s i hi]
  · rw [exec_installEvent_installing s hd rs hloader, htable, State.loaderFinish_eq]
    rfl

end Sys2Proof.Machine
end

section
/-! SUPPORT. What the blocks' own work does to part control, the settings and the aperture table: it leaves them, but for
the drains it ends and for the end of QUIESCING. -/

namespace Sys2Proof.Machine

/-- Two states that agree on part control, the loader, the flash link, the settings and the aperture table. -/
structure State.SameControl (s t : State) : Prop where
  partState : t.partState = s.partState
  ready : t.ready = s.ready
  loader : t.loader = s.loader
  outcome : t.outcome = s.outcome
  session : t.session = s.session
  flash : t.flash = s.flash
  apertures : t.apertures = s.apertures
  staging : t.staging = s.staging
  timing : t.timing = s.timing
  used : t.used = s.used

theorem State.SameControl.refl (s : State) : s.SameControl s := by constructor <;> rfl

/-- The work of the blocks, as part control and the aperture table see it: steps that leave them, tests of drains, and
tests of QUIESCING, one after another. -/
inductive State.Runs : State → State → Prop
  | same {s t : State} (h : s.SameControl t) : State.Runs s t
  | drain (s : State) (i : ApertureIdx) : State.Runs s (s.drainTest i)
  | quiesce (s : State) : State.Runs s s.quiesceTest
  | trans {s t u : State} (h : State.Runs s t) (h' : State.Runs t u) : State.Runs s u

theorem State.Runs.refl (s : State) : s.Runs s := .same (.refl s)

/-! ### Shared operations -/

theorem State.runs_drainTests (s : State) : s.Runs s.drainTests := by
  have fold : ∀ (l : List ApertureIdx) (u : State), u.Runs (l.foldl State.drainTest u) := by
    intro l
    induction l with
    | nil => exact fun u => .refl u
    | cons i l ih => exact fun u => (State.Runs.drain u i).trans (ih _)
  exact fold _ s

theorem State.runs_closeFor (s : State) (causes : List Cause) : s.Runs (s.closeFor causes) := by
  obtain ⟨slots, opens, flushes, touched, h⟩ := s.closeFor_frame causes
  rw [h]
  exact .same (by constructor <;> rfl)

theorem State.runs_fenceTest (s : State) : s.Runs s.fenceTest := by
  obtain ⟨f, h⟩ := s.fenceTest_frame
  rw [h]
  exact .same (by constructor <;> rfl)

theorem State.runs_guardProgress (s : State) : s.Runs s.guardProgress.1 := by
  obtain ⟨queue, h, -⟩ := s.guardProgress_frame
  rw [h]
  exact .same (by constructor <;> rfl)

theorem State.runs_gatherProgress (s : State) : s.Runs s.gatherProgress.1 := by
  obtain ⟨g, order, places, h⟩ := s.gatherProgress_frame
  rw [h]
  exact .same (by constructor <;> rfl)

theorem State.runs_settle (s : State) (causes : List Cause) : s.Runs (s.settle causes) := by
  rw [State.settle_eq]
  exact s.runs_guardProgress.trans ((State.runs_gatherProgress _).trans ((State.runs_closeFor _ _).trans
    ((State.runs_fenceTest _).trans ((State.runs_drainTests _).trans (.quiesce _)))))

/-- A change outside part control, settled in the same event. -/
theorem State.SameControl.settle {s t : State} (h : s.SameControl t) (causes : List Cause) : s.Runs (t.settle causes) :=
  (State.Runs.same h).trans (t.runs_settle causes)

theorem State.runs_scatterStep (s : State) : s.Runs s.scatterStep.state := by
  obtain ⟨slots, opens, records, engine, h⟩ := s.scatterStep_frame
  rw [h]
  exact .same (by constructor <;> rfl)

theorem State.runs_afterSlot (s : State) (freed : Bool) (line : Option Addr) : s.Runs (s.afterSlot freed line) := by
  unfold State.afterSlot
  split
  · exact s.runs_scatterStep.trans (State.runs_settle _ _)
  · exact s.runs_settle []

theorem State.runs_cancelEntries (s : State) (which : Entry → Bool) : s.Runs (s.cancelEntries which) := by
  obtain ⟨places, order, g, h⟩ := s.cancelEntries_frame which
  rw [h]
  exact .same (by constructor <;> rfl)

theorem State.runs_passTime (s : State) (t : Nat) : s.Runs (s.passTime t) := by
  have now : s.Runs { s with now := t } := .same (by constructor <;> rfl)
  have discards : ∀ (u : State) (l : List PlaceIdx), u.Runs (l.foldl State.discardEntry u) := by
    intro u l
    obtain ⟨places, order, ev, h⟩ := State.foldl_discardEntry_frame l u
    rw [h]
    exact .same (by constructor <;> rfl)
  exact now.trans ((State.runs_closeFor _ _).trans ((discards _ _).trans (State.runs_drainTests _)))

theorem State.runs_takeFrame (s : State) (code : Byte) (f : Frame) (d : Decider) (h : s.Runs (d f.args s).2) :
    s.Runs (s.takeFrame code f d) := by
  have receiver : ∀ (u : State) (r : Receiver), s.Runs u → s.Runs { u with receiver := r } :=
    fun u r hu => hu.trans (.same (by constructor <;> rfl))
  by_cases hphase : s.receiver.phase = .receiving
  · rw [State.takeFrame_receiving s code f d hphase]
    refine receiver _ _ ?_
    unfold State.frameOutcome
    repeat' split
    · exact .refl s
    · exact .refl s
    · exact .refl s
    · exact .refl s
    · exact h
  · rw [State.takeFrame_of_ne s code f d hphase]
    exact .refl s

/-! ### REQUEST -/

theorem State.runs_answer (s : State) (r : Requester) (a : Answer) : s.Runs (s.answer r a) :=
  .same (by constructor <;> rfl)

theorem State.runs_decodeError (s : State) (r : Request) (d : ErrorDetail) (i : Option ApertureIdx) :
    s.Runs (s.decodeError r d i) := .same (by constructor <;> rfl)

theorem State.runs_claim (s : State) (r : Request) (p : PlaceIdx) (e : Entry) : s.Runs (s.claim r p e) := by
  have freed : ∀ a, s.Runs (((s.freePlace p).drainTest e.aperture).answer r.requester a) := fun a =>
    (State.Runs.same (by constructor <;> rfl)).trans ((State.Runs.drain (s.freePlace p) e.aperture).trans
      (State.runs_answer _ _ _))
  unfold State.claim
  split
  · exact s.runs_answer _ _
  · exact s.runs_answer _ _
  · exact s.runs_answer _ _
  · exact freed _
  · split
    · exact (State.SameControl.settle (by constructor <;> rfl) []).trans (State.runs_answer _ _ _)
    · exact freed _

theorem State.runs_takeImmediate (s : State) (lines : List Addr) : s.Runs (s.takeImmediate lines) := by
  unfold State.takeImmediate
  split <;> exact .same (by constructor <;> rfl)

theorem State.runs_apertureRead (s : State) (r : Request) (i : ApertureIdx) : s.Runs (s.apertureRead r i) := by
  unfold State.apertureRead
  split
  · split
    · exact s.runs_claim r _ _
    · exact .refl s
  · split
    · have held : s.Runs (s.hold r (.immediate i)) := .same (by constructor <;> rfl)
      exact held.trans (State.runs_takeImmediate _ _)
    · split
      · exact (State.SameControl.settle (by constructor <;> rfl) []).trans (State.runs_answer _ _ _)
      · exact .same (by constructor <;> rfl)

theorem State.runs_suspendedRead (s : State) (r : Request) : s.Runs (s.suspendedRead r) := by
  unfold State.suspendedRead
  repeat' split
  · exact s.runs_claim r _ _
  all_goals exact s.runs_answer _ _

theorem State.runs_acceptWrite (s : State) (r : Request) (i : ApertureIdx) : s.Runs (s.acceptWrite r i) := by
  unfold State.acceptWrite
  dsimp only
  by_cases h : (s.aperture i).fields.readOrdering = .strict
  · rw [if_pos h]
    exact .same (by constructor <;> rfl)
  · rw [if_neg h]
    exact .same (by constructor <;> rfl)

theorem State.runs_apertureWrite (s : State) (r : Request) (i : ApertureIdx) : s.Runs (s.apertureWrite r i) := by
  unfold State.apertureWrite
  split
  · exact s.runs_answer _ _
  · split
    · exact s.runs_answer _ _
    · exact (s.runs_acceptWrite r i).trans (State.runs_answer _ _ _)

theorem State.runs_apertureRequest (s : State) (r : Request) (i : ApertureIdx) : s.Runs (s.apertureRequest r i) := by
  unfold State.apertureRequest
  repeat' split
  · exact s.runs_apertureRead r i
  · exact s.runs_apertureWrite r i
  · exact s.runs_decodeError r _ _
  · exact s.runs_suspendedRead r
  all_goals exact s.runs_answer _ _

theorem State.runs_appendForward (s : State) (r : Request) (guarded : Bool) : s.Runs (s.appendForward r guarded) :=
  State.SameControl.settle (by constructor <;> rfl) []

theorem State.runs_passThrough (s : State) (r : Request) : s.Runs (s.passThrough r) := by
  unfold State.passThrough
  split
  · exact s.runs_decodeError r _ _
  · dsimp only
    split
    · repeat' split
      · exact s.runs_answer _ _
      · exact s.runs_answer _ _
      · exact (s.runs_appendForward r _).trans (State.runs_answer _ _ _)
    · split
      · exact s.runs_answer _ _
      · have held : s.Runs (s.hold r .passThrough) := .same (by constructor <;> rfl)
        exact held.trans (State.runs_appendForward _ r _)

theorem execRequest_runs (r : Request) (s t : State) (h : execRequest r s = .next t) : s.Runs t := by
  unfold execRequest at h
  repeat' split at h
  all_goals cases h
  · exact .refl s
  · exact s.runs_answer _ _
  · exact s.runs_decodeError r _ _
  · exact s.runs_apertureRequest r _
  · exact s.runs_decodeError r _ _
  · exact s.runs_passThrough r

/-! ### PLACEMENT, GRANT and the completions -/

theorem execPlacement_runs (s t : State) (h : execPlacement s = .next t) : s.Runs t := by
  unfold execPlacement at h
  split at h
  all_goals cases h
  · split
    · exact s.runs_scatterStep.trans (State.runs_settle _ _)
    · exact s.runs_scatterStep.trans (State.runs_closeFor _ _)
  all_goals exact .refl s

theorem State.runs_issueForward (s : State) (g : Tag) (e : ForwardEntry) (rest : List ForwardEntry) (l : ForwardLine) :
    s.Runs (s.issueForward g e rest l) := by
  unfold State.issueForward
  dsimp only
  split
  · exact .same (by constructor <;> rfl)
  · split
    · refine State.SameControl.settle ?_ []
      unfold State.guardedWriteMarks
      split <;> constructor <;> rfl
    · exact .same (by constructor <;> rfl)

theorem State.runs_issueCombine (s : State) (g : Tag) (k : SlotIdx) : s.Runs (s.issueCombine g k) := by
  unfold State.issueCombine
  dsimp only
  split <;> exact .same (by constructor <;> rfl)

theorem State.runs_issueGather (s : State) (g : Tag) (line : Addr) : s.Runs (s.issueGather g line) := by
  unfold State.issueGather
  split <;> exact .same (by constructor <;> rfl)

theorem State.runs_issue (s : State) (src : Source) (g : Tag) : s.Runs (s.issue src g) := by
  unfold State.issue
  repeat' split
  · exact s.runs_issueForward g _ _ _
  · exact .refl s
  · exact s.runs_issueCombine g _
  · exact .refl s
  · exact s.runs_issueGather g _
  · exact .refl s

theorem State.runs_raiseOn (s : State) (o : MemOutcome) (k : EventKind) (i : Option ApertureIdx) (a : Addr)
    (q : Option Requester) : s.Runs (s.raiseOn o k i a q) := by
  obtain ⟨ev, h⟩ := s.raiseOn_frame o k i a q
  rw [h]
  exact .same (by constructor <;> rfl)

theorem State.runs_completeForwardRead (s : State) (c : Completion) (rec : TagRecord) :
    s.Runs (s.completeForwardRead c rec) := by
  unfold State.completeForwardRead
  split
  · exact .refl s
  · dsimp only
    split
    · exact (s.runs_raiseOn _ _ _ _ _).trans (State.SameControl.settle (by constructor <;> rfl) [])
    · exact (s.runs_raiseOn _ _ _ _ _).trans (.same (by constructor <;> rfl))

theorem State.runs_completePosted (s : State) (c : Completion) (rec : TagRecord) :
    s.Runs (s.completePosted c rec) := by
  unfold State.completePosted
  split
  · exact s.runs_settle []
  · exact (State.Runs.same (by constructor <;> rfl)).trans ((State.runs_raiseOn _ _ _ _ _ _).trans
      (State.runs_settle _ []))

theorem State.runs_noteFault (s : State) (x : Slot) : s.Runs (s.noteFault x) := by
  obtain ⟨f, h⟩ := s.noteFault_frame x
  rw [h]
  exact .same (by constructor <;> rfl)

theorem State.runs_completeMerge (s : State) (k : SlotIdx) (c : Completion) : s.Runs (s.completeMerge k c) := by
  unfold State.completeMerge
  dsimp only
  split
  · exact (State.Runs.same (by constructor <;> rfl)).trans (State.runs_afterSlot _ _ _)
  · have noted : s.Runs ((s.raise .mergeFault (some (s.slot k).aperture) (s.slot k).line none).noteFault (s.slot k)) :=
      (State.Runs.same (by constructor <;> rfl)).trans (State.runs_noteFault _ _)
    split
    · exact noted.trans ((State.Runs.same (by constructor <;> rfl)).trans (State.runs_afterSlot _ _ _))
    · exact noted.trans ((State.Runs.same (by constructor <;> rfl)).trans (State.runs_afterSlot _ _ _))

theorem State.runs_completeWrite (s : State) (k : SlotIdx) (c : Completion) : s.Runs (s.completeWrite k c) := by
  have freed : ∀ u : State, u.Runs ((u.freeSlot k).afterSlot true none) := fun u =>
    (State.Runs.same (by constructor <;> rfl)).trans (State.runs_afterSlot _ _ _)
  unfold State.completeWrite
  dsimp only
  split
  · exact freed s
  · exact ((State.Runs.same (by constructor <;> rfl)).trans (State.runs_noteFault _ _)).trans (freed _)

theorem State.runs_completeImmediate (s : State) (c : Completion) (rec : TagRecord) :
    s.Runs (s.completeImmediate c rec) := by
  unfold State.completeImmediate
  split
  · split
    · dsimp only
      split
      · exact (s.runs_raiseOn _ _ _ _ _).trans (State.SameControl.settle (by constructor <;> rfl) [])
      · exact (s.runs_raiseOn _ _ _ _ _).trans (.same (by constructor <;> rfl))
    · exact .refl s
  · exact .refl s

theorem State.runs_afterCancel (s : State) : s.Runs s.afterCancel := by
  unfold State.afterCancel
  split <;> exact .same (by constructor <;> rfl)

theorem State.runs_completeEntry (s : State) (p : PlaceIdx) (c : Completion) (rec : TagRecord) :
    s.Runs (s.completeEntry p c rec) := by
  unfold State.completeEntry
  split
  · exact .refl s
  · rename_i e _
    have raised := s.runs_raiseOn c.outcome .readFault (some e.aperture) rec.line (some e.requester)
    dsimp only
    split
    · split
      · exact raised.trans (State.SameControl.settle (by constructor <;> rfl) [])
      · exact raised.trans (.same (by constructor <;> rfl))
    · split
      · exact raised.trans ((State.Runs.same (by constructor <;> rfl)).trans ((State.runs_afterCancel _).trans
          (State.runs_settle _ [])))
      · exact raised.trans (.same (by constructor <;> rfl))
    all_goals exact raised

theorem State.runs_complete (s : State) (c : Completion) : s.Runs (s.complete c) := by
  have freed : s.Runs (s.setTag c.tag none) := .same (by constructor <;> rfl)
  unfold State.complete
  split
  · exact .refl s
  · rename_i rec _
    dsimp only
    split
    · exact freed.trans (State.runs_completeForwardRead _ c rec)
    · exact freed.trans (State.runs_completePosted _ c rec)
    · split
      · exact freed.trans (State.runs_completeMerge _ _ c)
      · exact freed.trans (State.runs_completeWrite _ _ c)
    · exact freed.trans (State.runs_completeImmediate _ c rec)
    · exact freed.trans (State.runs_completeEntry _ _ c rec)

/-! ### The timers and the link -/

theorem execAgeExpiry_runs (k : SlotIdx) (s t : State) (h : execAgeExpiry k s = .next t) : s.Runs t := by
  unfold execAgeExpiry at h
  split at h
  all_goals obtain rfl := Host.Outcome.next.inj h
  · exact s.runs_passTime _
  · exact .refl s

theorem execDiscardExpiry_runs (p : PlaceIdx) (s t : State) (h : execDiscardExpiry p s = .next t) : s.Runs t := by
  unfold execDiscardExpiry at h
  split at h
  all_goals obtain rfl := Host.Outcome.next.inj h
  · exact s.runs_passTime _
  · exact .refl s

theorem State.runs_selectionRises (s : State) : s.Runs s.selectionRises := by
  unfold State.selectionRises
  repeat' split
  all_goals exact .same (by constructor <;> rfl)

theorem execSelectionStart_runs (s t : State) (h : execSelectionStart s = .next t) : s.Runs t := by
  cases h
  repeat' split
  all_goals exact .same (by constructor <;> rfl)

theorem execResponseEnd_runs (s t : State) (h : execResponseEnd s = .next t) : s.Runs t := by
  unfold execResponseEnd at h
  split at h
  all_goals
    cases h
    exact .same (by constructor <;> rfl)

theorem apertureDecider_runs (args : List Byte) (s : State) : s.Runs (apertureDecider args s).2 := by
  rw [apertureDecider_state]
  exact .refl s

theorem State.runs_markSlots (s : State) (l : List SlotIdx) : s.Runs (s.markSlots l) := by
  obtain ⟨slots, h⟩ := State.markSlots_frame l s
  rw [h]
  exact .same (by constructor <;> rfl)

theorem State.runs_beginFence (s : State) : s.Runs s.beginFence :=
  (State.Runs.same (by constructor <;> rfl)).trans ((State.runs_markSlots _ _).trans (State.runs_settle _ _))

theorem fenceDecider_runs (args : List Byte) (s : State) : s.Runs (fenceDecider args s).2 := by
  unfold fenceDecider
  split
  · exact .refl s
  · dsimp only
    exact s.runs_beginFence

end Sys2Proof.Machine
end

section
/-! SUPPORT. The commands that act on part control, the settings or the aperture table, and what a property of these
needs so that every step keeps it. -/

namespace Sys2Proof.Machine

/-! ### Frames -/

/-- Taking a frame keeps what its command keeps and what no receiver's state disturbs. The command is obeyed only where
its row takes it (R161, R166). -/
theorem State.takeFrame_keeps {P : State → Prop} (s : State) (code : Byte) (f : Frame) (d : Decider)
    (hreceiver : ∀ (u : State) (r : Receiver), P u → P { u with receiver := r }) (hs : P s)
    (hd : ∀ row, commandRow code = some row → row.anyState = true ∨ s.partState = .run → P (d f.args s).2) :
    P (s.takeFrame code f d) := by
  by_cases hphase : s.receiver.phase = .receiving
  · rw [State.takeFrame_receiving s code f d hphase]
    refine hreceiver _ _ ?_
    unfold State.frameOutcome
    split
    · exact hs
    · split
      · exact hs
      · rename_i row hrow
        split
        · exact hs
        · split
          · exact hs
          · rename_i htaken
            exact hd row hrow (by simpa [or_iff_not_imp_left] using htaken)
  · rw [State.takeFrame_of_ne s code f d hphase]
    exact hs

/-- A frame whose row takes it in RUN alone. -/
theorem State.takeFrame_keeps_of_run {P : State → Prop} (s : State) (code : Byte) (f : Frame) (d : Decider)
    (hreceiver : ∀ (u : State) (r : Receiver), P u → P { u with receiver := r }) (hs : P s) (row : CommandRow)
    (hrow : commandRow code = some row) (hrun : row.anyState = false) (hd : s.partState = .run → P (d f.args s).2) :
    P (s.takeFrame code f d) := by
  refine s.takeFrame_keeps code f d hreceiver hs fun row' hrow' htaken => hd ?_
  rw [hrow] at hrow'
  cases hrow'
  simpa [hrun] using htaken

/-! ### FLASH_XFER's transfer (R189) -/

theorem State.transfer_selected (s : State) (payload : List Byte) : s.transfer payload .selected = { s with
    session := .selected
    flash := ⟨false, Config.linkLevel s.freeCount, Config.linkLevel (s.freeCount + 1)⟩
    trace := .flashShift payload :: (if s.flash.selN = false then s.trace else .flashSelect false :: s.trace)
    freeCount := s.freeCount + 2 } := by
  simp [State.transfer, State.flashSelect_eq, State.flashClocked]

theorem State.transfer_deselected (s : State) (payload : List Byte) : s.transfer payload .deselected = { s with
    session := .deselected
    flash := ⟨true, Config.linkLevel s.freeCount, Config.linkLevel (s.freeCount + 1)⟩
    trace := .flashSelect true :: .flashShift payload ::
      (if s.flash.selN = false then s.trace else .flashSelect false :: s.trace)
    freeCount := s.freeCount + 2 } := by
  simp [State.transfer, State.flashSelect_eq, State.flashClocked]

/-! ### The arbiter's allowance (R154) -/

/-- A grant uses one of the allowance, or begins a new one. -/
theorem State.choice_used (s : State) (src : Source) (n : Nat) (h : s.choice = some (src, n)) :
    n = 1 ∨ n = s.used + 1 ∧ s.used < s.timing.allowance := by
  unfold State.choice at h
  split at h
  · rename_i hholder
    cases h
    exact .inr ⟨rfl, hholder.2⟩
  · repeat' split at h
    all_goals cases h
    all_goals exact .inl rfl

/-! ### What every step keeps -/

/-- What a property of part control, the settings and the aperture table needs: that the blocks' own work keeps it, and
each command that acts on them, where that command can. -/
structure ControlKept (P : State → Prop) : Prop where
  runs : ∀ s t, P s → s.Runs t → P t
  powerOn : ∀ s : State, P s.powerOn
  loads : ∀ s, P s → s.partState = .held → P s.enterLoading
  fails : ∀ s o ev, P s → s.loader ≠ .idle → (∀ n, o ≠ .loaded n) → P (s.loadEnds o Timing.default ev)
  header : ∀ s h, P s → s.loader = .reading none → h.length = 16 → (headerOf h).passes →
    P { s with loader := .reading (some h) }
  image : ∀ s h rest, P s → s.loader = .reading (some h) → P { s.flashSelect true with loader := .checking (h ++ rest) }
  checked : ∀ s im rs, P s → s.loader = .checking im → checkImage im = .ok rs →
    P { s with loader := .installing (headerOf im) rs }
  installed : ∀ s hd rs ev, P s → s.loader = .installing hd rs →
    P ((rs.foldl State.installRecord s).loadEnds (.loaded rs.length) hd.timing ev)
  granted : ∀ s src n, P s → n = 1 ∨ n = s.used + 1 ∧ s.used < s.timing.allowance →
    P { s with holder := src, used := n }
  staged : ∀ s f, P s → s.partState = .run → P { s with staging := some f }
  commits : ∀ s i f, P s → s.partState = .run → (s.aperture i).state = .empty → f.valid = true →
    (∀ j, (s.aperture j).state ≠ .empty → f.Apart (s.aperture j).fields) → P (s.install i f)
  moves : ∀ s i st, P s → (s.aperture i).state = .active ∨ (s.aperture i).state = .suspended →
    st = .active ∨ st = .suspended → P (s.withApertureState i st)
  drains : ∀ s i ps, P s → (s.aperture i).state = .active ∨ (s.aperture i).state = .suspended →
    P (s.setAperture i ⟨.draining, (s.aperture i).fields, some ps⟩)
  retimed : ∀ s timing, P s → timing.acceptable = true → timing.discardLimit ≤ 65535 → P { s with timing := timing }
  opens : ∀ s, P s → s.partState = .run → s.session = .closed → P { s with session := .deselected }
  transfers : ∀ s payload after, P s → s.partState = .run → s.session ≠ .closed →
    after = .selected ∨ after = .deselected → P (s.transfer payload after)
  closes : ∀ s, P s → s.partState = .run → P s.closeSession
  quiesces : ∀ s, P s → s.partState = .run → P { s.closeSession with partState := .quiescing, ready := false }

section
variable {P : State → Prop} (K : ControlKept P)
include K

theorem ControlKept.same {s t : State} (h : P s) (hst : s.SameControl t) : P t := K.runs s t h (.same hst)

theorem ControlKept.receiver (u : State) (r : Receiver) (h : P u) : P { u with receiver := r } :=
  K.same h (by constructor <;> rfl)

/-! ### The loader's commands -/

theorem ControlKept.execHeaderReceived (header : List Byte) (s t : State) (h : P s)
    (ht : execHeaderReceived header s = .next t) : P t := by
  unfold Machine.execHeaderReceived at ht
  split at ht
  · rename_i hloader
    have hbusy : s.loader ≠ .idle := by simp [hloader]
    split at ht
    · rename_i hlen
      split at ht
      · obtain rfl := Host.Outcome.next.inj ht
        rw [State.finishBlank_eq]
        exact K.fails s _ _ h hbusy (by simp)
      · obtain rfl := Host.Outcome.next.inj ht
        rw [State.finishCorrupt_eq]
        exact K.fails s _ _ h hbusy (by simp)
      · rename_i hpass
        obtain rfl := Host.Outcome.next.inj ht
        exact K.header s header h hloader hlen hpass
    · obtain rfl := Host.Outcome.next.inj ht
      exact h
  all_goals
    obtain rfl := Host.Outcome.next.inj ht
    exact h

theorem ControlKept.execImageReadEnd (rest : List Byte) (s t : State) (h : P s)
    (ht : execImageReadEnd rest s = .next t) : P t := by
  unfold Machine.execImageReadEnd at ht
  split at ht
  · rename_i header hloader
    split at ht
    · obtain rfl := Host.Outcome.next.inj ht
      exact K.image s header rest h hloader
    · obtain rfl := Host.Outcome.next.inj ht
      exact h
  all_goals
    obtain rfl := Host.Outcome.next.inj ht
    exact h

theorem ControlKept.execChecksEnd (s t : State) (h : P s) (ht : execChecksEnd s = .next t) : P t := by
  unfold Machine.execChecksEnd at ht
  split at ht
  · rename_i image hloader
    split at ht
    · obtain rfl := Host.Outcome.next.inj ht
      rw [State.finishCorrupt_eq]
      exact K.fails s _ _ h (by simp [hloader]) (by simp)
    · rename_i rs hrs
      obtain rfl := Host.Outcome.next.inj ht
      exact K.checked s image rs h hloader hrs
  all_goals
    obtain rfl := Host.Outcome.next.inj ht
    exact h

theorem ControlKept.execInstallEvent (s t : State) (h : P s) (ht : execInstallEvent s = .next t) : P t := by
  unfold Machine.execInstallEvent at ht
  split at ht
  · rename_i hd rs hloader
    obtain rfl := Host.Outcome.next.inj ht
    rw [State.loaderFinish_eq]
    exact K.installed s hd rs _ h hloader
  all_goals
    obtain rfl := Host.Outcome.next.inj ht
    exact h

theorem ControlKept.execGrant (s t : State) (h : P s) (ht : execGrant s = .next t) : P t := by
  unfold Machine.execGrant at ht
  split at ht
  · rename_i src n g hchoice _
    obtain rfl := Host.Outcome.next.inj ht
    exact K.runs _ _ (K.granted s src n h (s.choice_used src n hchoice)) (State.runs_issue _ src g)
  · obtain rfl := Host.Outcome.next.inj ht
    exact h

/-! ### The deciders of the aperture commands -/

theorem ControlKept.stageDecider (args : List Byte) (s : State) (h : P s) (hrun : s.partState = .run) :
    P (stageDecider args s).2 := by
  unfold Machine.stageDecider
  split
  · exact h
  · exact K.staged s _ h hrun

omit K in
/-- The two searches of COMMIT that find nothing say that the staged record is apart from every other. -/
theorem State.apart_of_firstOverlap (s : State) (f : Fields) (hviews : s.firstOverlap f.viewsOverlap = none)
    (hsurfaces : s.firstOverlap f.surfacesOverlap = none) (j : ApertureIdx) (hj : (s.aperture j).state ≠ .empty) :
    f.Apart (s.aperture j).fields := by
  simp only [State.firstOverlap, find?_finRange_eq_none, Bool.and_eq_false_iff, bne_eq_false_iff_eq] at hviews hsurfaces
  exact ⟨(hviews j).resolve_left hj, (hsurfaces j).resolve_left hj⟩

theorem ControlKept.commitAt (s : State) (i : ApertureIdx) (h : P s) (hrun : s.partState = .run) :
    P (s.commitAt i).2 := by
  unfold State.commitAt
  split
  · exact h
  · rename_i f _
    split
    · exact h
    · rename_i hempty
      split
      · exact h
      · rename_i hvalid
        split
        · exact h
        · rename_i hviews
          split
          · exact h
          · rename_i hsurfaces
            exact K.commits s i f h hrun (not_not.mp hempty) (by simp [Fields.valid, hvalid])
              (s.apart_of_firstOverlap f hviews hsurfaces)

theorem ControlKept.suspendAt (s : State) (i : ApertureIdx) (h : P s) : P (s.suspendAt i).2 := by
  unfold State.suspendAt
  split
  · rename_i hactive
    exact K.moves s i .suspended h (.inl hactive) (.inr rfl)
  all_goals exact h

theorem ControlKept.resumeAt (s : State) (i : ApertureIdx) (h : P s) : P (s.resumeAt i).2 := by
  unfold State.resumeAt
  split
  · rename_i hsuspended
    exact K.moves s i .active h (.inr hsuspended) (.inl rfl)
  all_goals exact h

theorem ControlKept.beginDrain (s : State) (i : ApertureIdx) (h : P s)
    (hi : (s.aperture i).state = .active ∨ (s.aperture i).state = .suspended) : P (s.beginDrain i) :=
  K.runs _ _ (K.drains s i _ h hi) ((State.runs_cancelEntries _ _).trans (State.runs_settle _ _))

theorem ControlKept.retireAt (s : State) (i : ApertureIdx) (h : P s) : P (s.retireAt i).2 := by
  unfold State.retireAt
  split
  · rename_i hactive
    dsimp only
    exact K.beginDrain s i h (.inl hactive)
  · rename_i hsuspended
    dsimp only
    exact K.beginDrain s i h (.inr hsuspended)
  all_goals exact h

omit K in
/-- A command with an aperture index keeps what its rule keeps at every index. -/
theorem indexDecider_keeps (at' : State → ApertureIdx → Result × State) (args : List Byte) (s : State) (h : P s)
    (hat : ∀ i, P (at' s i).2) : P (indexDecider at' args s).2 := by
  unfold indexDecider
  split
  · exact h
  · exact hat _

/-! ### The deciders of the settings and of the flash session -/

omit K in
/-- Two bytes hold a number below 65536. -/
theorem numberOf_slice_two_le (bytes : List Byte) (i : Nat) : numberOf (slice bytes i 2) ≤ 65535 := by
  have hlen : (slice bytes i 2).length ≤ 2 := List.length_take_le _ _
  revert hlen
  generalize slice bytes i 2 = l
  intro hlen
  match l with
  | [] => simp [numberOf]
  | [a] => simp only [numberOf, List.foldl]; omega
  | [a, b] => simp only [numberOf, List.foldl]; omega
  | a :: b :: c :: l => simp at hlen

theorem ControlKept.timingDecider (args : List Byte) (s : State) (h : P s) : P (timingDecider args s).2 := by
  unfold Machine.timingDecider
  split
  · rename_i hfits
    exact K.runs _ _ (K.retimed s _ h hfits (numberOf_slice_two_le args 2)) (State.runs_closeFor _ _)
  · exact h

theorem ControlKept.openDecider (args : List Byte) (s : State) (h : P s) (hrun : s.partState = .run) :
    P (openDecider args s).2 := by
  by_cases hclosed : s.session = .closed
  · rw [openDecider_of_closed args s hclosed]
    exact K.opens s h hrun hclosed
  · rw [openDecider_of_open args s hclosed]
    exact h

omit K in
/-- A flag byte that is defined names one of the two select states of an open session. -/
theorem xferFlag_eq_some (b : Byte) (after : FlashSession) (h : xferFlag b = some after) :
    after = .selected ∨ after = .deselected := by
  unfold xferFlag at h
  split at h
  · exact .inl (Option.some.inj h).symm
  · split at h
    · exact .inr (Option.some.inj h).symm
    · cases h

theorem ControlKept.xferDecider (flashIn args : List Byte) (s : State) (h : P s) (hrun : s.partState = .run) :
    P (xferDecider flashIn args s).2 := by
  unfold Machine.xferDecider
  split
  · exact h
  all_goals
    rename_i hsession
    split
    · exact h
    · rename_i hflag
      exact K.transfers s _ _ h hrun (by simp [hsession]) (xferFlag_eq_some _ _ hflag)

theorem ControlKept.restartDecider (args : List Byte) (s : State) (h : P s) (hrun : s.partState = .run) :
    P (restartDecider args s).2 := by
  dsimp only [Machine.restartDecider]
  exact K.runs _ _ (K.quiesces s h hrun) ((State.runs_cancelEntries _ _).trans (State.runs_settle _ _))

/-! ### Every command, every step -/

/-- Every command keeps a property that the blocks' work and the acting commands keep. -/
theorem ControlKept.exec (c : Instr) (s t : State) (h : P s) (ht : exec c s = .next t) : P t := by
  have runs : ∀ {u : State}, s.Runs u → P u := fun hu => K.runs s _ h hu
  have frame : ∀ (code : Byte) (f : Frame) (d : Decider), s.Runs (d f.args s).2 → P (s.takeFrame code f d) :=
    fun code f d hd => runs (s.runs_takeFrame code f d hd)
  have inRun := fun (code : Byte) (f : Frame) (d : Decider) =>
    s.takeFrame_keeps_of_run (P := P) code f d K.receiver h
  cases c with
  | resetNAsserted => exact Host.Outcome.next.inj ht ▸ K.powerOn s
  | resetNReleased =>
    obtain rfl := Host.Outcome.next.inj ht
    split
    · rename_i hheld
      exact K.loads s h hheld
    · exact h
  | headerReceived header => exact K.execHeaderReceived header s t h ht
  | imageReadEnd rest => exact K.execImageReadEnd rest s t h ht
  | checksEnd => exact K.execChecksEnd s t h ht
  | installEvent => exact K.execInstallEvent s t h ht
  | request r => exact runs (execRequest_runs r s t ht)
  | placement => exact runs (execPlacement_runs s t ht)
  | grant => exact K.execGrant s t h ht
  | forwardReadCompletion x => exact Host.Outcome.next.inj ht ▸ runs (s.runs_complete x)
  | forwardWriteCompletion x => exact Host.Outcome.next.inj ht ▸ runs (s.runs_complete x)
  | mergeReadCompletion x => exact Host.Outcome.next.inj ht ▸ runs (s.runs_complete x)
  | lineWriteCompletion x => exact Host.Outcome.next.inj ht ▸ runs (s.runs_complete x)
  | immediateReadCompletion x => exact Host.Outcome.next.inj ht ▸ runs (s.runs_complete x)
  | gatherReadCompletion x => exact Host.Outcome.next.inj ht ▸ runs (s.runs_complete x)
  | cancelledReadCompletion x => exact Host.Outcome.next.inj ht ▸ runs (s.runs_complete x)
  | strayCompletion x => exact Host.Outcome.next.inj ht ▸ runs (s.runs_complete x)
  | ageExpiry k => exact runs (execAgeExpiry_runs k s t ht)
  | discardExpiry p => exact runs (execDiscardExpiry_runs p s t ht)
  | shortFrame => exact Host.Outcome.next.inj ht ▸ runs s.runs_selectionRises
  | unknownCodeFrame code f => exact Host.Outcome.next.inj ht ▸ frame code f _ (.refl s)
  | getStatus f => exact Host.Outcome.next.inj ht ▸ frame _ f _ (.same (by constructor <;> rfl))
  | getAperture f => exact Host.Outcome.next.inj ht ▸ frame _ f _ (apertureDecider_runs f.args s)
  | getEvents f => exact Host.Outcome.next.inj ht ▸ frame _ f _ (.refl s)
  | dumpSlots f => exact Host.Outcome.next.inj ht ▸ frame _ f _ (.refl s)
  | dumpDeferred f => exact Host.Outcome.next.inj ht ▸ frame _ f _ (.refl s)
  | stage f =>
    exact Host.Outcome.next.inj ht ▸
      inRun _ f _ _ commandRow_codeStage rfl fun hrun => K.stageDecider f.args s h hrun
  | commit f =>
    exact Host.Outcome.next.inj ht ▸ inRun _ f _ _ commandRow_codeCommit rfl fun hrun =>
      indexDecider_keeps _ f.args s h fun i => K.commitAt s i h hrun
  | suspend f =>
    exact Host.Outcome.next.inj ht ▸ inRun _ f _ _ commandRow_codeSuspend rfl fun _ =>
      indexDecider_keeps _ f.args s h fun i => K.suspendAt s i h
  | resume f =>
    exact Host.Outcome.next.inj ht ▸ inRun _ f _ _ commandRow_codeResume rfl fun _ =>
      indexDecider_keeps _ f.args s h fun i => K.resumeAt s i h
  | retire f =>
    exact Host.Outcome.next.inj ht ▸ inRun _ f _ _ commandRow_codeRetire rfl fun _ =>
      indexDecider_keeps _ f.args s h fun i => K.retireAt s i h
  | fence f => exact Host.Outcome.next.inj ht ▸ frame _ f _ (fenceDecider_runs f.args s)
  | clearEvents f => exact Host.Outcome.next.inj ht ▸ frame _ f _ (.same (by constructor <;> rfl))
  | setTiming f =>
    exact Host.Outcome.next.inj ht ▸
      inRun _ f _ _ commandRow_codeSetTiming rfl fun _ => K.timingDecider f.args s h
  | setAttention f => exact Host.Outcome.next.inj ht ▸ frame _ f _ (.same (by constructor <;> rfl))
  | flashOpen f =>
    exact Host.Outcome.next.inj ht ▸
      inRun _ f _ _ commandRow_codeFlashOpen rfl fun hrun => K.openDecider f.args s h hrun
  | flashXfer f flashIn =>
    exact Host.Outcome.next.inj ht ▸
      inRun _ f _ _ commandRow_codeFlashXfer rfl fun hrun => K.xferDecider flashIn f.args s h hrun
  | flashClose f =>
    exact Host.Outcome.next.inj ht ▸
      inRun _ f _ _ commandRow_codeFlashClose rfl fun hrun => K.closes s h hrun
  | restart f =>
    exact Host.Outcome.next.inj ht ▸
      inRun _ f _ _ commandRow_codeRestart rfl fun hrun => K.restartDecider f.args s h hrun
  | selectionStart => exact runs (execSelectionStart_runs s t ht)
  | selectionEnd => exact Host.Outcome.next.inj ht ▸ runs s.runs_selectionRises
  | responseEnd => exact runs (execResponseEnd_runs s t ht)

/-- So does every step. -/
theorem ControlKept.step (s t : State) (h : P s) (ht : step s = .next t) : P t := by
  rcases hq : s.pending with _ | ⟨c, rest⟩
  · rw [step_of_idle s hq] at ht
    exact Host.Outcome.next.inj ht ▸ K.runs s _ h (s.runs_passTime _)
  · have hstep : Machine.step s = Machine.exec c (s.withPending rest) := by simp only [Machine.step, hq]
    exact K.exec c (s.withPending rest) t (K.same h (by constructor <;> rfl)) (hstep ▸ ht)

end

end Sys2Proof.Machine
end

section
/-! O6: READY, the loader, the flash session and FL_SEL_N follow the part state (R58, R181, R187). -/

namespace Sys2Proof.Machine

/-- The law reads READY, the part state, the loader, the session and the flash link alone. -/
theorem State.PartLaw.congr {s t : State} (h : s.PartLaw) (hready : t.ready = s.ready)
    (hpart : t.partState = s.partState) (hloader : t.loader = s.loader) (hsession : t.session = s.session)
    (hflash : t.flash = s.flash) : t.PartLaw where
  readyInRun := by rw [hready, hpart]; exact h.readyInRun
  loaderInLoading := by rw [hloader, hpart]; exact h.loaderInLoading
  sessionInRun := by rw [hsession, hpart]; exact h.sessionInRun
  selected := by rw [hflash, hloader, hsession]; exact h.selected
  rests := by rw [hloader, hsession, hflash]; exact h.rests

/-- Outside RUN the session is CLOSED. -/
theorem State.PartLaw.closed_of_ne_run {s : State} (h : s.PartLaw) (hrun : s.partState ≠ .run) :
    s.session = .closed :=
  not_not.mp fun hopen => hrun (h.sessionInRun hopen)

theorem State.PartLaw.not_ready {s : State} (h : s.PartLaw) (hrun : s.partState ≠ .run) : s.ready = false :=
  Bool.eq_false_of_not_eq_true fun hready => hrun (h.readyInRun.mp hready)

/-- The loader at the start of a read (R181): the part is LOADING, FL_SEL_N is low, and the session is CLOSED. -/
theorem State.partLaw_of_reading {s : State} (hready : s.ready = false) (hpart : s.partState = .loading)
    (hloader : s.loader = .reading none) (hsession : s.session = .closed) (hsel : s.flash.selN = false) :
    s.PartLaw where
  readyInRun := by simp [hready, hpart]
  loaderInLoading := by simp [hloader, hpart]
  sessionInRun := by simp [hsession]
  selected := by simp [hsel, hloader]
  rests := by simp [hloader]

/-- The state a load ends in: RUN, READY high, the link at rest (R185). -/
theorem State.partLaw_of_running {s : State} (hready : s.ready = true) (hpart : s.partState = .run)
    (hloader : s.loader = .idle) (hsession : s.session = .closed) (hflash : s.flash = FlashPins.rest) :
    s.PartLaw where
  readyInRun := by simp [hready, hpart]
  loaderInLoading := by simp [hloader, hpart]
  sessionInRun := by simp [hsession]
  selected := by simp [hflash, hloader, hsession, FlashPins.rest]
  rests := fun _ _ => hflash

/-- While the loader is at work FL_SEL_N is low exactly in READING. -/
theorem State.PartLaw.withLoader {s t : State} (h : s.PartLaw) (hbusy : s.loader ≠ .idle) (hready : t.ready = s.ready)
    (hpart : t.partState = s.partState) (hsession : t.session = s.session) (hloader : t.loader ≠ .idle)
    (hsel : t.flash.selN = false ↔ ∃ header, t.loader = .reading header) : t.PartLaw := by
  have hloading := h.loaderInLoading.mp hbusy
  have hclosed := h.closed_of_ne_run (by simp [hloading])
  exact {
    readyInRun := by rw [hready, hpart]; exact h.readyInRun
    loaderInLoading := by simp [hpart, hloading, hloader]
    sessionInRun := by simp [hsession, hclosed]
    selected := by simp [hsel, hsession, hclosed]
    rests := fun hidle => absurd hidle hloader }

theorem State.PartLaw.enterLoading {s : State} (h : s.PartLaw) (hrun : s.partState ≠ .run) : s.enterLoading.PartLaw := by
  obtain ⟨clk, more, heq⟩ := s.enterLoading_frame
  rw [heq]
  exact State.partLaw_of_reading (h.not_ready hrun) rfl rfl (h.closed_of_ne_run hrun) rfl

theorem State.PartLaw.quiesceTest {s : State} (h : s.PartLaw) : s.quiesceTest.PartLaw := by
  unfold State.quiesceTest
  split
  · rename_i hq
    obtain ⟨clk, more, heq⟩ := s.endQuiescing_frame
    have hrun : s.partState ≠ .run := by simp [hq.1]
    rw [heq]
    exact State.partLaw_of_reading (h.not_ready hrun) rfl rfl (h.closed_of_ne_run hrun) rfl
  · exact h

theorem State.PartLaw.runs {s t : State} (h : s.PartLaw) (hst : s.Runs t) : t.PartLaw := by
  induction hst with
  | same hsame => exact h.congr hsame.ready hsame.partState hsame.loader hsame.session hsame.flash
  | drain s i =>
    obtain ⟨a, ha⟩ := s.drainTest_frame i
    rw [ha]
    exact h.congr rfl rfl rfl rfl rfl
  | quiesce s => exact h.quiesceTest
  | trans _ _ ih ih' => exact ih' (ih h)

/-- An open session whose select state FL_SEL_N shows (R187). -/
theorem State.PartLaw.withSession {s t : State} (h : s.PartLaw) (hrun : s.partState = .run) (hready : t.ready = s.ready)
    (hpart : t.partState = s.partState) (hloader : t.loader = s.loader) (hopen : t.session ≠ .closed)
    (hsel : t.flash.selN = false ↔ t.session = .selected) : t.PartLaw := by
  have hidle := h.loader_idle_of_run hrun
  exact {
    readyInRun := by rw [hready, hpart]; exact h.readyInRun
    loaderInLoading := by rw [hloader, hpart]; exact h.loaderInLoading
    sessionInRun := fun _ => hpart.trans hrun
    selected := by simp [hsel, hloader, hidle]
    rests := fun _ hclosed => absurd hclosed hopen }

/-- Closing the session brings the link to rest (R190). -/
theorem State.PartLaw.closeSession {s : State} (h : s.PartLaw) (hrun : s.partState = .run) :
    s.closeSession = { s with
      session := .closed
      flash := FlashPins.rest
      trace := if s.flash.selN then s.trace else .flashSelect true :: s.trace } := by
  by_cases hclosed : s.session = .closed
  · have hrest := h.flash_rest_of_run_closed hrun hclosed
    rw [s.closeSession_of_closed hclosed]
    obtain ⟨⟩ := s
    simp_all [FlashPins.rest]
  · exact s.closeSession_of_open hclosed

theorem partLaw_kept : ControlKept State.PartLaw where
  runs _ _ h hst := h.runs hst
  powerOn _ := resetStateKeepsEveryLaw.part.congr rfl rfl rfl rfl rfl
  loads _ h hheld := h.enterLoading (by simp [hheld])
  fails _ _ _ h hbusy _ := State.partLaw_of_running rfl rfl rfl
    (h.closed_of_ne_run (by simp [h.loaderInLoading.mp hbusy])) rfl
  header _ _ h hloader _ _ := h.withLoader (by simp [hloader]) rfl rfl rfl (by simp)
    (by simp [h.selected.mpr (.inl ⟨none, hloader⟩)])
  image s _ _ h hloader := by
    rw [State.flashSelect_eq]
    exact h.withLoader (by simp [hloader]) rfl rfl rfl (by simp) (by simp)
  checked s _ _ h hloader _ := by
    have hclosed := h.closed_of_ne_run (by simp [h.loaderInLoading.mp (by simp [hloader])])
    have hhigh := h.selected
    simp only [hloader, reduceCtorEq, exists_false, hclosed, or_self, iff_false] at hhigh
    exact h.withLoader (by simp [hloader]) rfl rfl rfl (by simp) (by simp [hhigh])
  installed s _ rs _ h hloader := by
    obtain ⟨a, ha⟩ := State.foldl_installRecord_frame rs s
    rw [ha]
    exact State.partLaw_of_running rfl rfl rfl
      (h.closed_of_ne_run (by simp [h.loaderInLoading.mp (by simp [hloader])])) rfl
  granted _ _ _ h _ := h.congr rfl rfl rfl rfl rfl
  staged _ _ h _ := h.congr rfl rfl rfl rfl rfl
  commits _ _ _ h _ _ _ _ := h.congr rfl rfl rfl rfl rfl
  moves _ _ _ h _ _ := h.congr rfl rfl rfl rfl rfl
  drains _ _ _ h _ := h.congr rfl rfl rfl rfl rfl
  retimed _ _ h _ _ := h.congr rfl rfl rfl rfl rfl
  opens _ h hrun hclosed := h.withSession hrun rfl rfl rfl (by simp)
    (by simp [h.flash_rest_of_run_closed hrun hclosed, FlashPins.rest])
  transfers s payload after h hrun _ hafter := by
    rcases hafter with rfl | rfl
    · rw [State.transfer_selected]
      exact h.withSession hrun rfl rfl rfl (by simp) (by simp)
    · rw [State.transfer_deselected]
      exact h.withSession hrun rfl rfl rfl (by simp) (by simp)
  closes _ h hrun := by
    rw [h.closeSession hrun]
    exact State.partLaw_of_running (h.readyInRun.mpr hrun) hrun (h.loader_idle_of_run hrun) rfl rfl
  quiesces _ h hrun := by
    have hidle := h.loader_idle_of_run hrun
    rw [h.closeSession hrun]
    exact {
      readyInRun := by simp
      loaderInLoading := by simp [hidle]
      sessionInRun := by simp
      selected := by simp [hidle, FlashPins.rest]
      rests := fun _ _ => rfl }

/-- Settles O6: the law is kept by the blocks' own work and by each command that acts on part control. -/
theorem partLawKeptByEveryStep : Obligations.PartLawKeptByEveryStep := partLaw_kept.step

end Sys2Proof.Machine
end

section
/-! O7: the settings, the allowance used and the header in hand stay in their ranges (R154, R171, R182). -/

namespace Sys2Proof.Machine

/-- The law reads the settings, the allowance used, the boot outcome and the loader alone. -/
theorem State.SettingsLaw.congr {s t : State} (h : s.SettingsLaw) (htiming : t.timing = s.timing)
    (hused : t.used = s.used) (houtcome : t.outcome = s.outcome) (hloader : t.loader = s.loader) : t.SettingsLaw where
  age := by rw [htiming]; exact h.age
  discard := by rw [htiming]; exact h.discard
  allowance := by rw [htiming]; exact h.allowance
  used := by rw [hused]; exact h.used
  loaded := by rw [houtcome]; exact h.loaded
  header := by rw [hloader]; exact h.header
  image := by rw [hloader]; exact h.image
  installing := by rw [hloader]; exact h.installing

/-- The ranges of the three settings (R171). -/
structure Timing.InRange (t : Timing) : Prop where
  age : t.ageLimit ≤ 4095
  discard : 16 ≤ t.discardLimit ∧ t.discardLimit ≤ 65535
  allowance : 1 ≤ t.allowance ∧ t.allowance ≤ 15

theorem Timing.default_inRange : Timing.default.InRange := by constructor <;> decide

theorem State.SettingsLaw.inRange {s : State} (h : s.SettingsLaw) : s.timing.InRange :=
  ⟨h.age, h.discard, h.allowance⟩

/-- A header that passes carries settings in range (R182). -/
theorem Header.timing_inRange (h : Header) (hp : h.passes) : h.timing.InRange := by
  obtain ⟨-, hage, hdiscard, hlow, hhigh⟩ := h.passes_ranges hp
  have hbound := h.discardLimit.isLt
  exact ⟨hage, ⟨hdiscard, by simp only [Header.timing]; omega⟩, hlow, hhigh⟩

/-- Settings in range beside a loader and an outcome that keep theirs. -/
theorem State.settingsLaw_of_parts {s : State} (htiming : s.timing.InRange) (hused : s.used ≤ 15)
    (hloaded : ∀ n, s.outcome = .loaded n → n ≤ 8)
    (hheader : ∀ h, s.loader = .reading (some h) → h.length = 16 ∧ (headerOf h).passes)
    (himage : ∀ im, s.loader = .checking im → 16 ≤ im.length ∧ (headerOf im).passes)
    (hinstalling : ∀ h rs, s.loader = .installing h rs → h.passes ∧ rs.length ≤ 8) : s.SettingsLaw :=
  ⟨htiming.age, htiming.discard, htiming.allowance, hused, hloaded, hheader, himage, hinstalling⟩

/-- The header read of a longer image is the header in hand. -/
theorem headerOf_append (header rest : List Byte) (h : header.length = 16) : headerOf (header ++ rest) = headerOf header := by
  have hslice : ∀ i n, i + n ≤ 16 → slice (header ++ rest) i n = slice header i n := fun i n hin => by
    rw [slice, slice, List.drop_append_of_le_length (by omega), List.take_append_of_le_length (by simp; omega)]
  have hbyte : ∀ i, i < 16 → byteAt (header ++ rest) i = byteAt header i := fun i hi => by
    simp [byteAt, List.getElem?_append_left (h ▸ hi)]
  simp [headerOf, hslice, hbyte]

theorem State.SettingsLaw.enterLoading {s : State} (h : s.SettingsLaw) (timing : Timing) (htiming : timing.InRange)
    {t : State} (ht : t.timing = timing) (hused : t.used = s.used) (houtcome : t.outcome = s.outcome)
    (hloader : t.loader = .reading none) : t.SettingsLaw :=
  State.settingsLaw_of_parts (ht ▸ htiming) (hused ▸ h.used) (houtcome ▸ h.loaded) (by simp [hloader])
    (by simp [hloader]) (by simp [hloader])

theorem State.SettingsLaw.quiesceTest {s : State} (h : s.SettingsLaw) : s.quiesceTest.SettingsLaw := by
  unfold State.quiesceTest
  split
  · obtain ⟨clk, more, heq⟩ := s.endQuiescing_frame
    rw [heq]
    exact h.enterLoading _ Timing.default_inRange rfl rfl rfl rfl
  · exact h

theorem State.SettingsLaw.runs {s t : State} (h : s.SettingsLaw) (hst : s.Runs t) : t.SettingsLaw := by
  induction hst with
  | same hsame => exact h.congr hsame.timing hsame.used hsame.outcome hsame.loader
  | drain s i =>
    obtain ⟨a, ha⟩ := s.drainTest_frame i
    rw [ha]
    exact h.congr rfl rfl rfl rfl
  | quiesce s => exact h.quiesceTest
  | trans _ _ ih ih' => exact ih' (ih h)

theorem Timing.inRange_of_acceptable (t : Timing) (h : t.acceptable = true) (hdiscard : t.discardLimit ≤ 65535) :
    t.InRange := by
  simp only [Timing.acceptable, Bool.and_eq_true, decide_eq_true_eq] at h
  obtain ⟨⟨⟨hage, hlow⟩, hone⟩, hfifteen⟩ := h
  exact ⟨hage, ⟨hlow, hdiscard⟩, hone, hfifteen⟩

theorem settingsLaw_kept : ControlKept State.SettingsLaw where
  runs _ _ h hst := h.runs hst
  powerOn _ := resetStateKeepsEveryLaw.settings.congr rfl rfl rfl rfl
  loads s h _ := by
    obtain ⟨clk, more, heq⟩ := s.enterLoading_frame
    rw [heq]
    exact h.enterLoading _ h.inRange rfl rfl rfl rfl
  fails _ _ _ h _ ho := State.settingsLaw_of_parts Timing.default_inRange h.used (fun n hn => absurd hn (ho n))
    (by simp [State.loadEnds]) (by simp [State.loadEnds]) (by simp [State.loadEnds])
  header _ _ h _ hlen hpass := State.settingsLaw_of_parts h.inRange h.used h.loaded
    (by rintro _ ⟨⟩; exact ⟨hlen, hpass⟩) (by simp) (by simp)
  image s header rest h hloader := by
    obtain ⟨hlen, hpass⟩ := h.header header hloader
    rw [State.flashSelect_eq]
    refine State.settingsLaw_of_parts h.inRange h.used h.loaded (by simp) ?_ (by simp)
    rintro _ ⟨⟩
    rw [headerOf_append header rest hlen]
    exact ⟨by simp [hlen], hpass⟩
  checked s im rs h hloader hrs := by
    obtain ⟨-, hpass⟩ := h.image im hloader
    refine State.settingsLaw_of_parts h.inRange h.used h.loaded (by simp) (by simp) ?_
    rintro _ _ ⟨⟩
    rw [(checkImage_ok im rs hrs).1]
    exact ⟨hpass, ((headerOf im).passes_ranges hpass).1⟩
  installed s hd rs ev h hloader := by
    obtain ⟨a, ha⟩ := State.foldl_installRecord_frame rs s
    obtain ⟨hpass, hcount⟩ := h.installing hd rs hloader
    rw [ha]
    refine State.settingsLaw_of_parts (hd.timing_inRange hpass) h.used ?_ (by simp [State.loadEnds])
      (by simp [State.loadEnds]) (by simp [State.loadEnds])
    rintro _ ⟨⟩
    exact hcount
  granted s _ n h hn := by
    have hmax := h.allowance.2
    exact State.settingsLaw_of_parts h.inRange (by rcases hn with rfl | ⟨rfl, hlt⟩ <;> simp only <;> omega) h.loaded
      h.header h.image h.installing
  staged _ _ h _ := h.congr rfl rfl rfl rfl
  commits _ _ _ h _ _ _ _ := h.congr rfl rfl rfl rfl
  moves _ _ _ h _ _ := h.congr rfl rfl rfl rfl
  drains _ _ _ h _ := h.congr rfl rfl rfl rfl
  retimed _ timing h hfits hdiscard := State.settingsLaw_of_parts (timing.inRange_of_acceptable hfits hdiscard) h.used
    h.loaded h.header h.image h.installing
  opens _ h _ _ := h.congr rfl rfl rfl rfl
  transfers s payload after h _ _ hafter := by
    rcases hafter with rfl | rfl
    · rw [State.transfer_selected]
      exact h.congr rfl rfl rfl rfl
    · rw [State.transfer_deselected]
      exact h.congr rfl rfl rfl rfl
  closes s h _ := by
    by_cases hclosed : s.session = .closed
    · rwa [s.closeSession_of_closed hclosed]
    · rw [s.closeSession_of_open hclosed]
      exact h.congr rfl rfl rfl rfl
  quiesces s h _ := by
    by_cases hclosed : s.session = .closed
    · rw [s.closeSession_of_closed hclosed]
      exact h.congr rfl rfl rfl rfl
    · rw [s.closeSession_of_open hclosed]
      exact h.congr rfl rfl rfl rfl

/-- Settles O7: settings change by SET_TIMING, by a header that passed and to their defaults; the allowance used only by a
grant. -/
theorem settingsLawKeptByEveryStep : Obligations.SettingsLawKeptByEveryStep := settingsLaw_kept.step

end Sys2Proof.Machine
end

section
/-! O8: the aperture table keeps its law, the overlap law of R10 included. -/

namespace Sys2Proof.Machine

theorem Fields.Apart.symm {f g : Fields} (h : f.Apart g) : g.Apart f := by
  obtain ⟨hviews, hsurfaces⟩ := h
  constructor
  · rw [Fields.viewsOverlap, Fields.viewMeets, rangesMeet_comm]
    exact hviews
  · rw [Fields.surfacesOverlap, Fields.surfaceMeets, rangesMeet_comm]
    exact hsurfaces

/-- The law reads the aperture table, the staging record, the part state and the loader alone. -/
theorem State.TableLaw.congr {s t : State} (h : s.TableLaw) (htable : t.apertures = s.apertures)
    (hstaging : t.staging = s.staging) (hpart : t.partState = s.partState) (hloader : t.loader = s.loader) :
    t.TableLaw := by
  have hat : ∀ i, t.aperture i = s.aperture i := State.aperture_congr t s htable
  exact {
    emptyValues := fun i => by rw [hat]; exact h.emptyValues i
    valid := fun i => by rw [hat]; exact h.valid i
    drain := fun i => by rw [hat]; exact h.drain i
    apart := fun i j => by rw [hat, hat]; exact h.apart i j
    emptyBeforeRun := by simp only [hat, hstaging, hpart]; exact h.emptyBeforeRun
    loaderInLoading := by rw [hloader, hpart]; exact h.loaderInLoading
    records := by rw [hloader]; exact h.records }

/-- A table of EMPTY records with nothing staged keeps the law beside any loader that keeps its own. -/
theorem State.tableLaw_of_empty {s : State} (hempty : ∀ i, s.aperture i = Aperture.cleared) (hstaging : s.staging = none)
    (hloader : s.loader ≠ .idle → s.partState = .loading)
    (hrecords : ∀ h rs, s.loader = .installing h rs → (∀ r ∈ rs, r.fields.valid = true) ∧
      rs.Pairwise (fun a b => a.index ≠ b.index ∧ a.fields.Apart b.fields)) : s.TableLaw where
  emptyValues i _ := hempty i
  valid i hi := by simp [hempty, Aperture.cleared] at hi
  drain i := by simp [hempty, Aperture.cleared]
  apart i j _ hi := by simp [hempty, Aperture.cleared] at hi
  emptyBeforeRun _ := ⟨hstaging, fun i => by rw [hempty]; rfl⟩
  loaderInLoading := hloader
  records := hrecords

/-- What one record must be so that the table keeps its law with it at index `i`. -/
structure State.Fits (s : State) (i : ApertureIdx) (x : Aperture) : Prop where
  emptyValues : x.state = .empty → x = Aperture.cleared
  valid : x.state ≠ .empty → x.fields.valid = true
  drain : x.drain.isSome = true ↔ x.state = .draining
  apart : x.state ≠ .empty → ∀ j, j ≠ i → (s.aperture j).state ≠ .empty → x.fields.Apart (s.aperture j).fields
  emptyBeforeRun : s.partState = .held ∨ s.partState = .loading → x.state = .empty

theorem State.TableLaw.setAperture {s : State} (h : s.TableLaw) (i : ApertureIdx) (x : Aperture) (hx : s.Fits i x) :
    (s.setAperture i x).TableLaw := by
  have hat : ∀ j, (s.setAperture i x).aperture j = if i = j then x else s.aperture j :=
    fun j => State.aperture_setAperture s i j x
  refine ⟨fun j => ?empty, fun j => ?valid, fun j => ?drain, fun j k hjk => ?apart, fun hp =>
    ⟨(h.emptyBeforeRun hp).1, fun j => ?before⟩, h.loaderInLoading, h.records⟩
  case empty => rw [hat]; split; exacts [hx.emptyValues, h.emptyValues j]
  case valid => rw [hat]; split; exacts [hx.valid, h.valid j]
  case drain => rw [hat]; split; exacts [hx.drain, h.drain j]
  case before => rw [hat]; split; exacts [hx.emptyBeforeRun hp, (h.emptyBeforeRun hp).2 j]
  case apart =>
    rw [hat, hat]
    split
    · rename_i hij
      subst hij
      rw [if_neg hjk]
      exact fun hxs => hx.apart hxs k (Ne.symm hjk)
    · split
      · rename_i hij hik
        subst hik
        exact fun hj hxs => (hx.apart hxs j hjk hj).symm
      · exact h.apart j k hjk

theorem State.fits_cleared (s : State) (i : ApertureIdx) : s.Fits i Aperture.cleared := by
  constructor <;> simp [Aperture.cleared]

theorem State.TableLaw.drainTest {s : State} (h : s.TableLaw) (i : ApertureIdx) : (s.drainTest i).TableLaw := by
  unfold State.drainTest
  split
  · exact h.setAperture i _ (s.fits_cleared i)
  · exact h

theorem State.TableLaw.quiesceTest {s : State} (h : s.TableLaw) : s.quiesceTest.TableLaw := by
  unfold State.quiesceTest
  split
  · obtain ⟨clk, more, heq⟩ := s.endQuiescing_frame
    rw [heq]
    exact State.tableLaw_of_empty (fun i => by simp [State.aperture]) rfl (fun _ => rfl) (by simp)
  · exact h

theorem State.TableLaw.runs {s t : State} (h : s.TableLaw) (hst : s.Runs t) : t.TableLaw := by
  induction hst with
  | same hsame => exact h.congr hsame.apertures hsame.staging hsame.partState hsame.loader
  | drain s i => exact h.drainTest i
  | quiesce s => exact h.quiesceTest
  | trans _ _ ih ih' => exact ih' (ih h)

/-- In HELD and in LOADING every record is EMPTY. -/
theorem State.TableLaw.cleared {s : State} (h : s.TableLaw) (hp : s.partState = .held ∨ s.partState = .loading)
    (i : ApertureIdx) : s.aperture i = Aperture.cleared :=
  h.emptyValues i ((h.emptyBeforeRun hp).2 i)

/-- A record that only moves among ACTIVE, SUSPENDED and DRAINING keeps its place in the table. -/
theorem State.TableLaw.fits_moved {s : State} (h : s.TableLaw) (i : ApertureIdx) (x : Aperture)
    (hi : (s.aperture i).state ≠ .empty) (hx : x.state ≠ .empty) (hfields : x.fields = (s.aperture i).fields)
    (hdrain : x.drain.isSome = true ↔ x.state = .draining) : s.Fits i x where
  emptyValues he := absurd he hx
  valid _ := hfields ▸ h.valid i hi
  drain := hdrain
  apart _ j hj hjs := hfields ▸ h.apart i j (Ne.symm hj) hi hjs
  emptyBeforeRun hp := absurd ((h.emptyBeforeRun hp).2 i) hi

/-- Neither ACTIVE nor SUSPENDED is EMPTY, and neither holds a prior set. -/
theorem State.TableLaw.atWork {s : State} (h : s.TableLaw) (i : ApertureIdx)
    (hi : (s.aperture i).state = .active ∨ (s.aperture i).state = .suspended) :
    (s.aperture i).state ≠ .empty ∧ (s.aperture i).drain.isSome = false := by
  have hdrain := h.drain i
  rcases hi with hi | hi <;> simp_all

theorem State.TableLaw.withLoader {s t : State} (h : s.TableLaw) (hloading : s.partState = .loading)
    (htable : t.apertures = s.apertures) (hstaging : t.staging = s.staging) (hpart : t.partState = s.partState)
    (hrecords : ∀ hd rs, t.loader = .installing hd rs → (∀ r ∈ rs, r.fields.valid = true) ∧
      rs.Pairwise (fun a b => a.index ≠ b.index ∧ a.fields.Apart b.fields)) : t.TableLaw :=
  State.tableLaw_of_empty (fun i => (State.aperture_congr t s htable i).trans (h.cleared (.inr hloading) i))
    (hstaging.trans (h.emptyBeforeRun (.inr hloading)).1) (fun _ => hpart.trans hloading) hrecords

/-- The table INSTALL_EVENT leaves, from a table of EMPTY records (R184). -/
theorem State.TableLaw.installed {s : State} (h : s.TableLaw) (hd : Header) (rs : List BootRecord) (ev : EventUnit)
    (hloader : s.loader = .installing hd rs) :
    ((rs.foldl State.installRecord s).loadEnds (.loaded rs.length) hd.timing ev).TableLaw := by
  have hloading := h.loaderInLoading (by simp [hloader])
  obtain ⟨hvalid, hpairs⟩ := h.records hd rs hloader
  have hdistinct : rs.Pairwise (fun a b => a.index ≠ b.index) := hpairs.imp fun hab => hab.1
  obtain ⟨t, ht⟩ : ∃ t, t = (rs.foldl State.installRecord s).loadEnds (.loaded rs.length) hd.timing ev := ⟨_, rfl⟩
  have hat : ∀ i, t.aperture i = (rs.foldl State.installRecord s).aperture i := fun i => by rw [ht]; rfl
  have hcases : ∀ i, t.aperture i = Aperture.cleared ∨
      ∃ r ∈ rs, r.index = i ∧ t.aperture i = ⟨.active, r.fields, none⟩ := by
    intro i
    by_cases hnamed : ∃ r ∈ rs, r.index = i
    · obtain ⟨r, hr, rfl⟩ := hnamed
      exact .inr ⟨r, hr, rfl, (hat _).trans (State.foldl_installRecord_aperture rs s hdistinct r hr)⟩
    · push Not at hnamed
      rw [hat, State.foldl_installRecord_aperture_of_not_named rs s i hnamed]
      exact .inl (h.cleared (.inr hloading) i)
  have hpart : t.partState = .run := by rw [ht]; rfl
  have hidle : t.loader = .idle := by rw [ht]; rfl
  rw [← ht]
  refine ⟨fun i hi => ?empty, fun i hi => ?valid, fun i => ?drain, fun i j hij hi hj => ?apart, by simp [hpart],
    by simp [hidle], by simp [hidle]⟩
  case empty =>
    rcases hcases i with hi' | ⟨r, -, -, hi'⟩
    · exact hi'
    · simp [hi'] at hi
  case valid =>
    rcases hcases i with hi' | ⟨r, hr, -, hi'⟩
    · simp [hi', Aperture.cleared] at hi
    · rw [hi']
      exact hvalid r hr
  case drain =>
    rcases hcases i with hi' | ⟨r, -, -, hi'⟩ <;> simp [hi', Aperture.cleared]
  case apart =>
    rcases hcases i with hi' | ⟨r, hr, rfl, hi'⟩
    · simp [hi', Aperture.cleared] at hi
    rcases hcases j with hj' | ⟨q, hq, rfl, hj'⟩
    · simp [hj', Aperture.cleared] at hj
    rw [hi', hj']
    have hapart : rs.Pairwise (fun a b => a.index ≠ b.index → a.fields.Apart b.fields) :=
      hpairs.imp fun hab _ => hab.2
    have symmetric : Std.Symm (fun a b : BootRecord => a.index ≠ b.index → a.fields.Apart b.fields) :=
      ⟨fun _ _ hab hne => (hab hne.symm).symm⟩
    exact hapart.forall_of_forall (fun _ _ hne => absurd rfl hne) hr hq hij

theorem tableLaw_kept : ControlKept State.TableLaw where
  runs _ _ h hst := h.runs hst
  powerOn _ := resetStateKeepsEveryLaw.table.congr rfl rfl rfl rfl
  loads s h hheld := by
    obtain ⟨clk, more, heq⟩ := s.enterLoading_frame
    rw [heq]
    exact State.tableLaw_of_empty (h.cleared (.inl hheld)) (h.emptyBeforeRun (.inl hheld)).1 (fun _ => rfl) (by simp)
  fails s o ev h hbusy _ := by
    have hloading := h.loaderInLoading hbusy
    exact State.tableLaw_of_empty (h.cleared (.inr hloading)) (h.emptyBeforeRun (.inr hloading)).1
      (by simp [State.loadEnds]) (by simp [State.loadEnds])
  header _ _ h hloader _ _ := h.withLoader (h.loaderInLoading (by simp [hloader])) rfl rfl rfl (by simp)
  image s _ _ h hloader := by
    rw [State.flashSelect_eq]
    exact h.withLoader (h.loaderInLoading (by simp [hloader])) rfl rfl rfl (by simp)
  checked s im rs h hloader hrs := by
    refine h.withLoader (h.loaderInLoading (by simp [hloader])) rfl rfl rfl ?_
    rintro _ _ ⟨⟩
    exact (checkImage_ok im rs hrs).2
  installed _ hd rs ev h hloader := h.installed hd rs ev hloader
  granted _ _ _ h _ := h.congr rfl rfl rfl rfl
  staged s f h hrun := ⟨h.emptyValues, h.valid, h.drain, h.apart, by simp [hrun], h.loaderInLoading, h.records⟩
  commits s i f h hrun _ hvalid hapart := by
    have hset : (s.setAperture i ⟨.active, f, none⟩).TableLaw := h.setAperture i _
      ⟨by simp, fun _ => hvalid, by simp, fun _ j _ hj => hapart j hj, by simp [hrun]⟩
    exact ⟨hset.emptyValues, hset.valid, hset.drain, hset.apart, fun hp => ⟨rfl, (hset.emptyBeforeRun hp).2⟩,
      hset.loaderInLoading, hset.records⟩
  moves s i st h hi hst := by
    obtain ⟨hne, hdrain⟩ := h.atWork i hi
    refine h.setAperture i _ (h.fits_moved i _ hne ?_ rfl ?_)
    · rcases hst with rfl | rfl <;> simp
    · rcases hst with rfl | rfl <;> simp [hdrain]
  drains s i ps h hi := h.setAperture i _ (h.fits_moved i _ (h.atWork i hi).1 (by simp) rfl (by simp))
  retimed _ _ h _ _ := h.congr rfl rfl rfl rfl
  opens _ h _ _ := h.congr rfl rfl rfl rfl
  transfers s payload after h _ _ hafter := by
    rcases hafter with rfl | rfl
    · rw [State.transfer_selected]
      exact h.congr rfl rfl rfl rfl
    · rw [State.transfer_deselected]
      exact h.congr rfl rfl rfl rfl
  closes s h _ := by
    by_cases hclosed : s.session = .closed
    · rwa [s.closeSession_of_closed hclosed]
    · rw [s.closeSession_of_open hclosed]
      exact h.congr rfl rfl rfl rfl
  quiesces s h hrun := by
    have hidle : s.loader = .idle := not_not.mp fun hbusy => by simp [h.loaderInLoading hbusy] at hrun
    have quiescing : ∀ t : State, t.apertures = s.apertures → t.partState = .quiescing → t.loader = s.loader →
        t.TableLaw := fun t htable hpart hloader => by
      have hat : ∀ i, t.aperture i = s.aperture i := State.aperture_congr t s htable
      exact ⟨fun i => by rw [hat]; exact h.emptyValues i, fun i => by rw [hat]; exact h.valid i,
        fun i => by rw [hat]; exact h.drain i, fun i j => by rw [hat, hat]; exact h.apart i j, by simp [hpart],
        fun hbusy => absurd (hloader.trans hidle) hbusy, by simp [hloader, hidle]⟩
    by_cases hclosed : s.session = .closed
    · rw [s.closeSession_of_closed hclosed]
      exact quiescing _ rfl rfl rfl
    · rw [s.closeSession_of_open hclosed]
      exact quiescing _ rfl rfl rfl

/-- Settles O8: the table changes by COMMIT, by the boot records, by a move of one record's state and by a record that
becomes EMPTY. -/
theorem tableLawKeptByEveryStep : Obligations.TableLawKeptByEveryStep := tableLaw_kept.step

end Sys2Proof.Machine
end

section
/-! SUPPORT. The commands that act on the port, the intake, the combine store, the deferred reads, the forward queue and
the tags, and what a property of these blocks needs so that every step keeps it. -/

namespace Sys2Proof.Machine

/-- Two states that agree on the port, the intake and its engine, the combine store, the fence, the deferred reads, the
forward queue and the tags. -/
structure State.SameBlocks (s t : State) : Prop where
  port : t.port = s.port
  intake : t.intake = s.intake
  acceptCount : t.acceptCount = s.acceptCount
  scatter : t.scatter = s.scatter
  slots : t.slots = s.slots
  openOrder : t.openOrder = s.openOrder
  flushOrder : t.flushOrder = s.flushOrder
  fence : t.fence = s.fence
  places : t.places = s.places
  queuedOrder : t.queuedOrder = s.queuedOrder
  gather : t.gather = s.gather
  forward : t.forward = s.forward
  tags : t.tags = s.tags

theorem State.SameBlocks.refl (s : State) : s.SameBlocks s := by constructor <;> rfl

theorem State.SameBlocks.trans {s t u : State} (h : s.SameBlocks t) (h' : t.SameBlocks u) : s.SameBlocks u where
  port := h'.port.trans h.port
  intake := h'.intake.trans h.intake
  acceptCount := h'.acceptCount.trans h.acceptCount
  scatter := h'.scatter.trans h.scatter
  slots := h'.slots.trans h.slots
  openOrder := h'.openOrder.trans h.openOrder
  flushOrder := h'.flushOrder.trans h.flushOrder
  fence := h'.fence.trans h.fence
  places := h'.places.trans h.places
  queuedOrder := h'.queuedOrder.trans h.queuedOrder
  gather := h'.gather.trans h.gather
  forward := h'.forward.trans h.forward
  tags := h'.tags.trans h.tags

theorem State.SameBlocks.setPlace_gather {s t : State} (h : s.SameBlocks t) (p : PlaceIdx) (x : Option Entry)
    (g : Gather) : ({ s.setPlace p x with gather := g } : State).SameBlocks { t.setPlace p x with gather := g } where
  port := h.port
  intake := h.intake
  acceptCount := h.acceptCount
  scatter := h.scatter
  slots := h.slots
  openOrder := h.openOrder
  flushOrder := h.flushOrder
  fence := h.fence
  places := by simp only [State.setPlace, h.places]
  queuedOrder := h.queuedOrder
  gather := rfl
  forward := h.forward
  tags := h.tags

/-- Freeing a slot and noting a fault in the fence do not touch each other (R94, R100). -/
theorem State.freeSlot_noteFault (s : State) (x : Slot) (k : SlotIdx) :
    (s.noteFault x).freeSlot k = (s.freeSlot k).noteFault x := by
  by_cases h : s.fence.state = .pending ∧ x.mark = true
  · rw [State.noteFault, if_pos h]
    exact (if_pos h).symm
  · rw [State.noteFault, if_neg h]
    exact (if_neg h).symm

theorem State.setSlot_noteFault (s : State) (x y : Slot) (k : SlotIdx) :
    (s.noteFault x).setSlot k y = (s.setSlot k y).noteFault x := by
  by_cases h : s.fence.state = .pending ∧ x.mark = true
  · rw [State.noteFault, if_pos h]
    exact (if_pos h).symm
  · rw [State.noteFault, if_neg h]
    exact (if_neg h).symm

/-- Leaving CANCEL_WAIT reads nothing of the event unit (R129). -/
theorem State.afterCancel_events (s : State) (ev : EventUnit) :
    s.afterCancel.SameBlocks ({ s with events := ev } : State).afterCancel := by
  have hwaiting : ({ s with events := ev } : State).waitingImmediate = s.waitingImmediate := rfl
  rw [State.afterCancel, State.afterCancel, hwaiting]
  cases s.waitingImmediate <;> constructor <;> rfl

/-- The slot after a merge fault that leaves bytes (R92). -/
def Slot.reduced (x : Slot) : Slot :=
  { x with mask := wholeBytes x.coverage, state := .writing, request := .ready }

/-- The head after one of its lines has been granted (R135). -/
def ForwardEntry.granted (e : ForwardEntry) (g : Tag) : ForwardEntry := { e with lines := markGranted g e.lines }

/-- The READ head after a grant: RETURNING once no line is left to issue (R135). -/
def ForwardEntry.grantedRead (e : ForwardEntry) (g : Tag) : ForwardEntry :=
  if (firstUnissued (e.granted g).lines).isNone then { e.granted g with state := .returning } else e.granted g

/-- What a property of the blocks needs so that every step keeps it. `P` is the property, `Q` what is left of it within an
event, before the blocks have settled, and `A` a property that every state is known to have. -/
structure BlockKept (A P Q : State → Prop) : Prop where
  same : ∀ s t, P s → s.SameBlocks t → P t
  sameQ : ∀ s t, Q s → s.SameBlocks t → Q t
  sameA : ∀ s t, A s → s.SameBlocks t → A t
  loose : ∀ s, P s → Q s
  powerOn : ∀ s : State, P s.powerOn
  settle : ∀ s causes, Q s → P (s.settle causes)
  closeFor : ∀ s causes, P s → P (s.closeFor causes)
  stale : ∀ s which, P s → P (s.markStale which)
  staleQ : ∀ s which, Q s → Q (s.markStale which)
  scatters : ∀ s, P s → P s.scatterStep.state
  accepts : ∀ s (r : Request) i, P s → s.intake.length < 8 → (∃ b ∈ r.data, b.enabled = true) → P { s with
    intake := s.intake ++ [s.newRecord r i]
    acceptCount := s.acceptCount + 1
    scatter := if s.intake.isEmpty then ⟨.placing, firstCursor r.data⟩ else s.scatter }
  frees : ∀ s p e, P s → s.place p = some e →
    e.state = .ready ∨ e.state = .failed ∨ e.expiry.isSome = true → P (s.freePlace p)
  requeues : ∀ s p e ps, P s → s.place p = some e → e.state = .ready →
    Q { s.setPlace p (some (e.requeued ps)) with queuedOrder := s.queuedOrder ++ [p] }
  creates : ∀ s p (r : Request) i ps, P s → s.entryWith r.requester r.address r.beats = none → s.place p = none →
    Q { s.setPlace p (some ⟨r.requester, r.address, r.beats, i, .queued, false, ps, ReadBuffer.blank, none⟩) with
      queuedOrder := s.queuedOrder ++ [p] }
  immediates : ∀ s (r : Request) i, P s → s.port = .idle → s.immediateOk r i = true →
    P ((s.hold r (.immediate i)).takeImmediate (s.readFootprint r i))
  appendsWrite : ∀ s (r : Request) guarded, P s → s.port = .idle → s.forward.length < 6 → r.kind = .write →
    Q { s with forward := s.forward ++ [s.newForward r guarded] }
  appendsRead : ∀ s (r : Request) guarded, P s → s.port = .idle → s.forward.length < 6 → r.kind = .read →
    Q { s.hold r .passThrough with forward := s.forward ++ [s.newForward r guarded] }
  issuesRead : ∀ s g e rest l, P s → s.tag g = none → s.forward = e :: rest → e.state = .issuing →
    firstUnissued e.lines = some l → e.kind = .read →
    P { s.setTag g (some ⟨.forward, .read, l.line, .readHead⟩) with forward := e.grantedRead g :: rest }
  issuesWrite : ∀ s g e rest l, P s → s.tag g = none → s.forward = e :: rest → e.state = .issuing →
    firstUnissued e.lines = some l → e.kind = .write →
    P { s.setTag g (some ⟨.forward, .write, l.line, .outstandingWrite⟩) with forward := e.granted g :: rest } ∧
    Q { s.setTag g (some ⟨.forward, .write, l.line, .outstandingWrite⟩) with forward := rest }
  issuesCombine : ∀ s g k, P s → s.tag g = none → s.combineOffer = some k → P (s.issueCombine g k)
  issuesGather : ∀ s g line, P s → s.tag g = none → s.gatherOffer = some line → P (s.issueGather g line)
  headCompletes : ∀ s t rec c, A s → P s → s.tag t = some rec → rec.owner = .readHead → c.tag = t →
    (s.forward = [] → P (s.setTag t none)) ∧
    ∀ e rest, s.forward = e :: rest →
      P { s.setTag t none with forward := e.completed c rec.line :: rest } ∧
      (anyGranted (e.completed c rec.line).lines = false → Q { s.setTag t none with forward := rest, port := .idle })
  writeCompletes : ∀ s t rec, P s → s.tag t = some rec → rec.owner = .outstandingWrite → P (s.setTag t none)
  slotFreed : ∀ s t rec k, P s → s.tag t = some rec → rec.owner = .slot k → P ((s.setTag t none).freeSlot k)
  slotMerged : ∀ s t rec k l, P s → s.tag t = some rec → rec.owner = .slot k → rec.kind = .read →
    P ((s.setTag t none).setSlot k ((s.slot k).merged l))
  slotReduced : ∀ s t rec k, P s → s.tag t = some rec → rec.owner = .slot k → rec.kind = .read →
    P ((s.setTag t none).setSlot k (s.slot k).reduced)
  notes : ∀ s x, P s → P (s.noteFault x)
  immediateCompletes : ∀ s t rec o, P s → s.tag t = some rec → rec.owner = .immediateRead →
    (((∀ job buffer, s.gather ≠ .immediate job buffer) ∨ ¬ s.holdsImmediate) → P (s.setTag t none)) ∧
    ∀ job buffer, s.gather = .immediate job buffer → s.holdsImmediate →
      (∀ buf, P { s.setTag t none with gather := .immediate (job.completedOne t o) buf }) ∧
      ((job.completedOne t o).ended = true → Q { s.setTag t none with gather := .idle, port := .idle })
  entryCompletes : ∀ s t rec o p, P s → s.tag t = some rec → rec.owner = .place p →
    ((s.place p = none ∨ ∀ q job, s.gather ≠ .reading q job ∧ s.gather ≠ .cancelWait q job) → P (s.setTag t none)) ∧
    ∀ e, s.place p = some e →
      (∀ q job buf, s.gather = .reading q job →
        P { (s.setTag t none).setPlace p (some { e with buffer := buf }) with gather := .reading q (job.completedOne t o) } ∧
        ((job.completedOne t o).ended = true → ∀ faulted expiry, Q { (s.setTag t none).setPlace p
          (some ({ e with buffer := buf }.gathered faulted expiry)) with gather := .idle })) ∧
      (∀ q job, s.gather = .cancelWait q job →
        ((job.completedOne t o).outstanding ≠ [] →
          P { s.setTag t none with gather := .cancelWait q (job.completedOne t o) }) ∧
        ((job.completedOne t o).outstanding = [] → Q ((s.setTag t none).freePlace p).afterCancel))
  cancels : ∀ s which, P s → Q (s.cancelEntries which)
  fences : ∀ s ps, P s → s.fence.state ≠ .pending →
    P ({ s with fence := ⟨.pending, some ps, false⟩ }.markSlots s.busySlots)
  reported : ∀ s, P s → P { s with fence := s.fence.reported }

section
variable {A P Q : State → Prop} (K : BlockKept A P Q)
include K

/-! ### Shared operations -/

/-- A property that a settled event keeps, up to what no block reads. -/
theorem BlockKept.settled {s t u : State} (h : P s) (hst : s.SameBlocks t) (causes : List Cause)
    (hu : (t.settle causes).SameBlocks u) : P u :=
  K.same _ _ (K.settle t causes (K.sameQ s t (K.loose s h) hst)) hu

theorem BlockKept.answer (s : State) (r : Requester) (a : Answer) (h : P s) : P (s.answer r a) :=
  K.same s _ h (by constructor <;> rfl)

omit K in
theorem State.sameBlocks_raiseOn (s : State) (o : MemOutcome) (k : EventKind) (i : Option ApertureIdx) (a : Addr)
    (q : Option Requester) : s.SameBlocks (s.raiseOn o k i a q) := by
  cases o <;> constructor <;> rfl

omit K in
theorem State.sameBlocks_drainTests (s : State) : s.SameBlocks s.drainTests := by
  obtain ⟨a, ha⟩ := s.drainTests_frame
  rw [ha]
  constructor <;> rfl

theorem BlockKept.drainTest (s : State) (i : ApertureIdx) (h : P s) : P (s.drainTest i) := by
  obtain ⟨a, ha⟩ := s.drainTest_frame i
  rw [ha]
  exact K.same s _ h (by constructor <;> rfl)

theorem BlockKept.afterSlot (s : State) (freed : Bool) (line : Option Addr) (h : P s) : P (s.afterSlot freed line) := by
  unfold State.afterSlot
  split
  · exact K.settle _ _ (K.loose _ (K.scatters s h))
  · exact K.settle s [] (K.loose s h)

theorem BlockKept.discardEntry (s : State) (p : PlaceIdx) (h : P s)
    (hp : ∀ e, s.place p = some e → e.expiry.isSome = true) : P (s.discardEntry p) := by
  unfold State.discardEntry
  split
  · exact h
  · rename_i e he
    exact K.same _ _ (K.frees s p e h he (.inr (.inr (hp e he)))) (by constructor <;> rfl)

/-- Discarding expired entries keeps what freeing them keeps: one that is still there has its expiry time yet. -/
theorem BlockKept.foldl_discardEntry (l : List PlaceIdx) (s : State) (h : P s)
    (hl : ∀ p ∈ l, ∀ e, s.place p = some e → e.expiry.isSome = true) : P (l.foldl State.discardEntry s) := by
  induction l generalizing s with
  | nil => exact h
  | cons p l ih =>
    refine ih _ (K.discardEntry s p h (hl p List.mem_cons_self)) fun q hq e he => ?_
    rw [State.discardEntry_place] at he
    split at he
    · cases he
    · exact hl q (List.mem_cons_of_mem _ hq) e he

theorem BlockKept.passTime (s : State) (t : Nat) (h : P s) : P (s.passTime t) := by
  have hclosed := K.closeFor { s with now := t } [⟨.age, ({ s with now := t } : State).agedBy t⟩]
    (K.same s _ h (by constructor <;> rfl))
  have hexpired := K.foldl_discardEntry _ _ hclosed fun p hp e he => by
    obtain ⟨e', x, he', hx, -⟩ := (State.mem_expiredBy _ t p).mp hp
    rw [he'] at he
    cases he
    simp [hx]
  exact K.same _ _ hexpired (State.sameBlocks_drainTests _)

/-! ### REQUEST -/

theorem BlockKept.claim (s : State) (r : Request) (p : PlaceIdx) (e : Entry) (h : P s) (he : s.place p = some e) :
    P (s.claim r p e) := by
  have freed : ∀ a, e.state = .ready ∨ e.state = .failed →
      P (((s.freePlace p).drainTest e.aperture).answer r.requester a) := fun a hstate =>
    K.answer _ _ _ (K.drainTest _ _ (K.frees s p e h he (hstate.imp_right .inl)))
  unfold State.claim
  split
  · exact K.answer s _ _ h
  · exact K.answer s _ _ h
  · exact K.answer s _ _ h
  · rename_i hfailed
    exact freed _ (.inr hfailed)
  · rename_i hready
    split
    · exact K.answer _ _ _ (K.settle _ [] (K.requeues s p e _ h he hready))
    · exact freed _ (.inl hready)

theorem BlockKept.apertureRead (s : State) (r : Request) (i : ApertureIdx) (h : P s) (hport : s.port = .idle) :
    P (s.apertureRead r i) := by
  unfold State.apertureRead
  split
  · split
    · rename_i e he
      exact K.claim s r _ e h he
    · exact h
  · rename_i hkey
    split
    · rename_i hok
      exact K.immediates s r i h hport hok
    · split
      · rename_i p hp
        exact K.answer _ _ _ (K.settle _ [] (K.creates s p r i _ h hkey ((s.firstFreePlace_eq_some p).mp hp).1))
      · exact K.same s _ h (by constructor <;> rfl)

theorem BlockKept.suspendedRead (s : State) (r : Request) (h : P s) : P (s.suspendedRead r) := by
  unfold State.suspendedRead
  split
  · split
    · rename_i e he
      split
      · exact K.claim s r _ e h he
      · exact K.answer s _ _ h
    · exact K.answer s _ _ h
  · exact K.answer s _ _ h

theorem BlockKept.apertureWrite (s : State) (r : Request) (i : ApertureIdx) (h : P s) : P (s.apertureWrite r i) := by
  unfold State.apertureWrite
  split
  · exact K.answer s _ _ h
  · rename_i henabled
    split
    · exact K.answer s _ _ h
    · rename_i hroom
      have haccept := K.accepts s r i h (Nat.not_le.mp hroom)
        ((noneEnabled_eq_false r).mp (Bool.eq_false_of_not_eq_true henabled))
      refine K.answer _ _ _ ?_
      unfold State.acceptWrite
      dsimp only
      by_cases hstrict : (s.aperture i).fields.readOrdering = .strict
      · rw [if_pos hstrict]
        exact K.stale _ _ haccept
      · rw [if_neg hstrict]
        exact haccept

theorem BlockKept.apertureRequest (s : State) (r : Request) (i : ApertureIdx) (h : P s) (hport : s.port = .idle) :
    P (s.apertureRequest r i) := by
  unfold State.apertureRequest
  repeat' split
  · exact K.apertureRead s r i h hport
  · exact K.apertureWrite s r i h
  · exact K.same s _ h (by constructor <;> rfl)
  · exact K.suspendedRead s r h
  all_goals exact K.answer s _ _ h

theorem BlockKept.passThrough (s : State) (r : Request) (h : P s) (hport : s.port = .idle) : P (s.passThrough r) := by
  unfold State.passThrough
  split
  · exact K.same s _ h (by constructor <;> rfl)
  · dsimp only
    split
    · rename_i hkind
      repeat' split
      · exact K.answer s _ _ h
      · exact K.answer s _ _ h
      · rename_i hroom
        exact K.answer _ _ _ (K.settle _ [] (K.appendsWrite s r _ h hport (Nat.not_le.mp hroom) hkind))
    · rename_i hkind
      split
      · exact K.answer s _ _ h
      · rename_i hroom
        exact K.settle _ [] (K.appendsRead s r _ h hport (Nat.not_le.mp hroom) hkind)

theorem BlockKept.execRequest (r : Request) (s t : State) (h : P s) (ht : execRequest r s = .next t) : P t := by
  unfold Machine.execRequest at ht
  split at ht
  · obtain rfl := Host.Outcome.next.inj ht
    exact h
  · rename_i hport
    split at ht
    all_goals obtain rfl := Host.Outcome.next.inj ht
    · exact K.answer s _ _ h
    · exact K.same s _ h (by constructor <;> rfl)
    · exact K.apertureRequest s r _ h hport
    · exact K.same s _ h (by constructor <;> rfl)
    · exact K.passThrough s r h hport

/-! ### PLACEMENT and GRANT -/

theorem BlockKept.execPlacement (s t : State) (h : P s) (ht : execPlacement s = .next t) : P t := by
  unfold Machine.execPlacement at ht
  split at ht
  all_goals obtain rfl := Host.Outcome.next.inj ht
  · split
    · exact K.settle _ _ (K.loose _ (K.scatters s h))
    · exact K.closeFor _ _ (K.scatters s h)
  all_goals exact h

omit K in
/-- What FORWARD offers is the first unissued line of an ISSUING head (R135). -/
theorem State.forwardOffer_eq_some (s : State) (e : ForwardEntry) (rest : List ForwardEntry) (l : ForwardLine)
    (hf : s.forward = e :: rest) (ho : s.forwardOffer = some l) :
    e.state = .issuing ∧ firstUnissued e.lines = some l := by
  rw [State.forwardOffer, hf] at ho
  dsimp only at ho
  split at ho
  · rename_i hissuing
    exact ⟨hissuing, ho⟩
  · cases ho

theorem BlockKept.issueForward (s : State) (g : Tag) (e : ForwardEntry) (rest : List ForwardEntry) (l : ForwardLine)
    (h : P s) (hg : s.tag g = none) (hf : s.forward = e :: rest) (ho : s.forwardOffer = some l) :
    P (s.issueForward g e rest l) := by
  obtain ⟨hissuing, hline⟩ := s.forwardOffer_eq_some e rest l hf ho
  unfold State.issueForward
  dsimp only
  split
  · rename_i hkind
    exact K.same _ _ (K.issuesRead s g e rest l h hg hf hissuing hline hkind) (by constructor <;> rfl)
  · rename_i hkind
    obtain ⟨hmore, hlast⟩ := K.issuesWrite s g e rest l h hg hf hissuing hline hkind
    split
    · refine K.settle _ [] ?_
      have hleft := K.sameQ _ (({ (s.setTag g (some ⟨.forward, .write, l.line, .outstandingWrite⟩)).emit
        (.memory (.lineWrite g l.line (writeLine e.address e.data l.line) (writeMask e.address e.data l.line))) with
          posted := s.posted ++ [OutstandingWrite.mk g l.line e.requester], forward := rest })) hlast
        (by constructor <;> rfl)
      unfold State.guardedWriteMarks
      split
      · exact hleft
      · exact K.staleQ _ _ hleft
    · exact K.same _ _ hmore (by constructor <;> rfl)

theorem BlockKept.execGrant (s t : State) (h : P s) (ht : execGrant s = .next t) : P t := by
  unfold Machine.execGrant at ht
  split at ht
  · rename_i src n g _ hfree
    obtain rfl := Host.Outcome.next.inj ht
    have hu : P { s with holder := src, used := n } := K.same s _ h (by constructor <;> rfl)
    have hg : ({ s with holder := src, used := n } : State).tag g = none := ((s.freeTag_eq_some g).mp hfree).1
    unfold State.issue
    repeat' split
    · rename_i hf ho
      exact K.issueForward _ g _ _ _ hu hg hf ho
    · exact hu
    · rename_i ho
      exact K.issuesCombine _ g _ hu hg ho
    · exact hu
    · rename_i ho
      exact K.issuesGather _ g _ hu hg ho
    · exact hu
  · obtain rfl := Host.Outcome.next.inj ht
    exact h

/-! ### The completions -/

theorem BlockKept.completeForwardRead (s : State) (c : Completion) (rec : TagRecord) (hA : A s) (h : P s)
    (hrec : s.tag c.tag = some rec) (ho : rec.owner = .readHead) :
    P ((s.setTag c.tag none).completeForwardRead c rec) := by
  obtain ⟨hlost, hserved⟩ := K.headCompletes s c.tag rec c hA h hrec ho rfl
  unfold State.completeForwardRead
  split
  · rename_i hf
    exact hlost hf
  · rename_i e rest hf
    obtain ⟨hmore, hlast⟩ := hserved e rest hf
    obtain ⟨ev, hev⟩ := State.raiseOn_frame (s.setTag c.tag none) c.outcome .readFault none rec.line (some e.requester)
    dsimp only
    split
    · rename_i hdone
      refine K.settle _ [] (K.sameQ _ _ (hlast hdone.2) ?_)
      rw [hev]
      constructor <;> rfl
    · refine K.same _ _ hmore ?_
      rw [hev]
      constructor <;> rfl

theorem BlockKept.completePosted (s : State) (c : Completion) (rec : TagRecord) (h : P (s.setTag c.tag none)) :
    P ((s.setTag c.tag none).completePosted c rec) := by
  unfold State.completePosted
  split
  · exact K.settle _ [] (K.loose _ h)
  · rename_i w _
    refine K.settle _ [] (K.loose _ (K.same _ _ h ?_))
    exact (by constructor <;> rfl : State.SameBlocks _ { s.setTag c.tag none with
      posted := (s.setTag c.tag none).posted.filter (fun v => v.tag != c.tag) }).trans (State.sameBlocks_raiseOn _ _ _ _ _ _)

theorem BlockKept.completeMerge (s : State) (c : Completion) (rec : TagRecord) (k : SlotIdx) (h : P s)
    (hrec : s.tag c.tag = some rec) (ho : rec.owner = .slot k) (hkind : rec.kind = .read) :
    P ((s.setTag c.tag none).completeMerge k c) := by
  unfold State.completeMerge
  dsimp only
  split
  · exact K.afterSlot _ _ _ (K.slotMerged s c.tag rec k c.line h hrec ho hkind)
  · split
    · refine K.afterSlot _ _ _ ?_
      rw [State.freeSlot_noteFault]
      exact K.notes _ _ (K.same _ _ (K.slotFreed s c.tag rec k h hrec ho) (by constructor <;> rfl))
    · refine K.afterSlot _ _ _ ?_
      rw [State.setSlot_noteFault]
      exact K.notes _ _ (K.same _ _ (K.slotReduced s c.tag rec k h hrec ho hkind) (by constructor <;> rfl))

theorem BlockKept.completeWrite (s : State) (c : Completion) (rec : TagRecord) (k : SlotIdx) (h : P s)
    (hrec : s.tag c.tag = some rec) (ho : rec.owner = .slot k) : P ((s.setTag c.tag none).completeWrite k c) := by
  have hfreed := K.slotFreed s c.tag rec k h hrec ho
  unfold State.completeWrite
  dsimp only
  split
  · exact K.afterSlot _ _ _ hfreed
  · refine K.afterSlot _ _ _ ?_
    rw [State.freeSlot_noteFault]
    exact K.notes _ _ (K.same _ _ hfreed (by constructor <;> rfl))

theorem BlockKept.completeImmediate (s : State) (c : Completion) (rec : TagRecord) (h : P s)
    (hrec : s.tag c.tag = some rec) (ho : rec.owner = .immediateRead) :
    P ((s.setTag c.tag none).completeImmediate c rec) := by
  obtain ⟨hlost, hserved⟩ := K.immediateCompletes s c.tag rec c.outcome h hrec ho
  unfold State.completeImmediate
  split
  · rename_i job buffer r hgather hport
    split
    · rename_i i hservice
      obtain ⟨hmore, hlast⟩ := hserved job buffer hgather ⟨r, i, hport, hservice⟩
      have hraised := State.sameBlocks_raiseOn (s.setTag c.tag none) c.outcome .readFault (some i) rec.line
        (some r.requester)
      dsimp only
      split
      · rename_i hended
        exact K.settle _ [] (K.sameQ _ _ (hlast hended) { hraised with gather := rfl, port := rfl })
      · exact K.same _ _ (hmore _) { hraised with gather := rfl }
    · rename_i hservice
      refine hlost (.inr ?_)
      rintro ⟨r', i, hport', hservice'⟩
      rw [show s.port = .holding r from hport] at hport'
      cases hport'
      rw [hservice] at hservice'
      cases hservice'
  · rename_i hne
    refine hlost (or_iff_not_imp_left.mpr fun himm => ?_)
    push Not at himm
    obtain ⟨job, buffer, hgather⟩ := himm
    rintro ⟨r, i, hport, -⟩
    exact hne job buffer r hgather hport

omit K in
/-- A line read of a GATHERING entry completes: the entry's buffer takes what it returned, and the gather ends with the
last one (R120, R121). -/
theorem State.completeEntry_reading (s : State) (p q : PlaceIdx) (c : Completion) (rec : TagRecord) (e : Entry)
    (job : ReadJob) (he : s.place p = some e) (hg : s.gather = .reading q job) :
    ∃ buf, s.completeEntry p c rec =
      if (job.completedOne c.tag c.outcome).ended then
        { (s.raiseOn c.outcome .readFault (some e.aperture) rec.line (some e.requester)).setPlace p
          (some ({ e with buffer := buf }.gathered (job.completedOne c.tag c.outcome).faulted
            (s.now + s.timing.discardLimit))) with gather := .idle }.settle []
      else
        { (s.raiseOn c.outcome .readFault (some e.aperture) rec.line (some e.requester)).setPlace p
          (some { e with buffer := buf }) with gather := .reading q (job.completedOne c.tag c.outcome) } := by
  unfold State.completeEntry
  rw [he]
  dsimp only
  rw [hg]
  cases c.outcome
  · exact ⟨_, rfl⟩
  · exact ⟨e.buffer, rfl⟩

theorem BlockKept.completeEntry (s : State) (p : PlaceIdx) (c : Completion) (rec : TagRecord) (h : P s)
    (hrec : s.tag c.tag = some rec) (ho : rec.owner = .place p) :
    P ((s.setTag c.tag none).completeEntry p c rec) := by
  obtain ⟨hlost, hserved⟩ := K.entryCompletes s c.tag rec c.outcome p h hrec ho
  rcases he : s.place p with _ | e
  · rw [show (s.setTag c.tag none).completeEntry p c rec = s.setTag c.tag none by
      unfold State.completeEntry
      rw [show (s.setTag c.tag none).place p = none from he]]
    exact hlost (.inl he)
  obtain ⟨hreading, hcancelled⟩ := hserved e he
  have hraised := State.sameBlocks_raiseOn (s.setTag c.tag none) c.outcome .readFault (some e.aperture) rec.line
    (some e.requester)
  by_cases hjob : ∃ q job, s.gather = .reading q job
  · obtain ⟨q, job, hgather⟩ := hjob
    obtain ⟨buf, hserves⟩ := State.completeEntry_reading (s.setTag c.tag none) p q c rec e job he hgather
    obtain ⟨hmore, hlast⟩ := hreading q job buf hgather
    rw [hserves]
    split
    · rename_i hended
      exact K.settle _ [] (K.sameQ _ _ (hlast hended _ _) (hraised.setPlace_gather p _ _))
    · exact K.same _ _ hmore (hraised.setPlace_gather p _ _)
  · unfold State.completeEntry
    rw [show (s.setTag c.tag none).place p = some e from he]
    dsimp only
    split
    · rename_i q job hgather
      exact absurd ⟨q, job, hgather⟩ hjob
    · rename_i q job hgather
      obtain ⟨hmore, hlast⟩ := hcancelled q job hgather
      split
      · rename_i hnone
        obtain ⟨ev, hev⟩ := State.raiseOn_frame (s.setTag c.tag none) c.outcome .readFault (some e.aperture) rec.line
          (some e.requester)
        rw [hev]
        exact K.settle _ [] (K.sameQ _ _ (hlast (List.isEmpty_iff.mp hnone))
          ((State.freePlace (s.setTag c.tag none) p).afterCancel_events ev))
      · rename_i hsome
        exact K.same _ _ (hmore fun hnone => hsome (List.isEmpty_iff.mpr hnone)) { hraised with gather := rfl }
    all_goals
      rename_i hgather
      refine K.same _ _ (hlost (.inr fun q job => ?_)) hraised
      rw [show s.gather = _ from hgather]
      simp

theorem BlockKept.complete (s : State) (c : Completion) (hA : A s) (h : P s) : P (s.complete c) := by
  rcases hrec : s.tag c.tag with _ | rec
  · rw [s.complete_of_free c hrec]
    exact h
  · cases ho : rec.owner with
    | readHead =>
      rw [s.complete_readHead c rec hrec ho]
      exact K.completeForwardRead s c rec hA h hrec ho
    | outstandingWrite =>
      rw [s.complete_outstandingWrite c rec hrec ho]
      exact K.completePosted s c rec (K.writeCompletes s c.tag rec h hrec ho)
    | slot k =>
      cases hkind : rec.kind with
      | read =>
        rw [s.complete_slotRead c rec k hrec ho hkind]
        exact K.completeMerge s c rec k h hrec ho hkind
      | write =>
        rw [s.complete_slotWrite c rec k hrec ho hkind]
        exact K.completeWrite s c rec k h hrec ho
    | immediateRead =>
      rw [s.complete_immediateRead c rec hrec ho]
      exact K.completeImmediate s c rec h hrec ho
    | place p =>
      rw [s.complete_place c rec p hrec ho]
      exact K.completeEntry s p c rec h hrec ho

/-! ### The deciders -/

/-- A decider that leaves the blocks alone. -/
theorem BlockKept.frame (s : State) (code : Byte) (f : Frame) (d : Decider) (h : P s)
    (hd : P s → P (d f.args s).2) : P (s.takeFrame code f d) :=
  s.takeFrame_keeps code f d (fun u _ hu => K.same u _ hu (by constructor <;> rfl)) h fun _ _ _ => hd h

theorem BlockKept.stageDecider (args : List Byte) (s : State) (h : P s) : P (stageDecider args s).2 := by
  unfold Machine.stageDecider
  split
  · exact h
  · exact K.same s _ h (by constructor <;> rfl)

theorem BlockKept.commitAt (s : State) (i : ApertureIdx) (h : P s) : P (s.commitAt i).2 := by
  unfold State.commitAt
  repeat' split
  all_goals first
    | exact h
    | exact K.same s _ h (by constructor <;> rfl)

theorem BlockKept.suspendAt (s : State) (i : ApertureIdx) (h : P s) : P (s.suspendAt i).2 := by
  unfold State.suspendAt
  split
  · exact K.same s _ h (by constructor <;> rfl)
  all_goals exact h

theorem BlockKept.resumeAt (s : State) (i : ApertureIdx) (h : P s) : P (s.resumeAt i).2 := by
  unfold State.resumeAt
  split
  · exact K.same s _ h (by constructor <;> rfl)
  all_goals exact h

theorem BlockKept.beginDrain (s : State) (i : ApertureIdx) (h : P s) : P (s.beginDrain i) :=
  K.settle _ _ (K.cancels _ _ (K.same s _ h (by constructor <;> rfl)))

theorem BlockKept.retireAt (s : State) (i : ApertureIdx) (h : P s) : P (s.retireAt i).2 := by
  unfold State.retireAt
  split
  · dsimp only
    exact K.beginDrain s i h
  · dsimp only
    exact K.beginDrain s i h
  all_goals exact h

theorem BlockKept.fenceDecider (args : List Byte) (s : State) (h : P s) : P (fenceDecider args s).2 := by
  unfold Machine.fenceDecider
  split
  · exact h
  · rename_i hidle
    dsimp only
    exact K.settle _ _ (K.loose _ (K.fences s _ h hidle))

theorem BlockKept.timingDecider (args : List Byte) (s : State) (h : P s) : P (timingDecider args s).2 := by
  unfold Machine.timingDecider
  split
  · exact K.closeFor _ _ (K.same s _ h (by constructor <;> rfl))
  · exact h

theorem BlockKept.openDecider (args : List Byte) (s : State) (h : P s) : P (openDecider args s).2 := by
  by_cases hclosed : s.session = .closed
  · rw [openDecider_of_closed args s hclosed]
    exact K.same s _ h (by constructor <;> rfl)
  · rw [openDecider_of_open args s hclosed]
    exact h

theorem BlockKept.xferDecider (flashIn args : List Byte) (s : State) (h : P s) : P (xferDecider flashIn args s).2 := by
  unfold Machine.xferDecider
  split
  · exact h
  all_goals
    split
    · exact h
    · rename_i hflag
      rcases xferFlag_eq_some _ _ hflag with rfl | rfl
      · rw [State.transfer_selected]
        exact K.same s _ h (by constructor <;> rfl)
      · rw [State.transfer_deselected]
        exact K.same s _ h (by constructor <;> rfl)

omit K in
theorem State.sameBlocks_closeSession (s : State) : s.SameBlocks s.closeSession := by
  by_cases hclosed : s.session = .closed
  · rw [s.closeSession_of_closed hclosed]
    exact .refl s
  · rw [s.closeSession_of_open hclosed]
    constructor <;> rfl

theorem BlockKept.restartDecider (args : List Byte) (s : State) (h : P s) : P (restartDecider args s).2 := by
  dsimp only [Machine.restartDecider]
  exact K.settle _ _ (K.cancels _ _ (K.same s _ h
    (s.sameBlocks_closeSession.trans (by constructor <;> rfl))))

/-! ### The loader's commands and the link -/

omit K in
theorem State.sameBlocks_loadEnds (s : State) (o : BootOutcome) (timing : Timing) (ev : EventUnit) :
    s.SameBlocks (s.loadEnds o timing ev) := by constructor <;> rfl

omit K in
theorem State.sameBlocks_enterLoading (s : State) : s.SameBlocks s.enterLoading := by
  obtain ⟨clk, more, heq⟩ := s.enterLoading_frame
  rw [heq]
  constructor <;> rfl

omit K in
theorem execHeaderReceived_sameBlocks (header : List Byte) (s t : State) (ht : execHeaderReceived header s = .next t) :
    s.SameBlocks t := by
  unfold Machine.execHeaderReceived at ht
  split at ht
  · split at ht
    · split at ht
      all_goals obtain rfl := Host.Outcome.next.inj ht
      · rw [State.finishBlank_eq]
        exact s.sameBlocks_loadEnds _ _ _
      · rw [State.finishCorrupt_eq]
        exact s.sameBlocks_loadEnds _ _ _
      · constructor <;> rfl
    · obtain rfl := Host.Outcome.next.inj ht
      exact .refl s
  all_goals
    obtain rfl := Host.Outcome.next.inj ht
    exact .refl s

omit K in
theorem execImageReadEnd_sameBlocks (rest : List Byte) (s t : State) (ht : execImageReadEnd rest s = .next t) :
    s.SameBlocks t := by
  unfold Machine.execImageReadEnd at ht
  split at ht
  · split at ht
    · obtain rfl := Host.Outcome.next.inj ht
      rw [State.flashSelect_eq]
      constructor <;> rfl
    · obtain rfl := Host.Outcome.next.inj ht
      exact .refl s
  all_goals
    obtain rfl := Host.Outcome.next.inj ht
    exact .refl s

omit K in
theorem execChecksEnd_sameBlocks (s t : State) (ht : execChecksEnd s = .next t) : s.SameBlocks t := by
  unfold Machine.execChecksEnd at ht
  split at ht
  · split at ht
    all_goals obtain rfl := Host.Outcome.next.inj ht
    · rw [State.finishCorrupt_eq]
      exact s.sameBlocks_loadEnds _ _ _
    · constructor <;> rfl
  all_goals
    obtain rfl := Host.Outcome.next.inj ht
    exact .refl s

omit K in
theorem execInstallEvent_sameBlocks (s t : State) (ht : execInstallEvent s = .next t) : s.SameBlocks t := by
  unfold Machine.execInstallEvent at ht
  split at ht
  · rename_i hd rs _
    obtain rfl := Host.Outcome.next.inj ht
    obtain ⟨a, ha⟩ := State.foldl_installRecord_frame rs s
    rw [ha, State.loaderFinish_eq]
    constructor <;> rfl
  all_goals
    obtain rfl := Host.Outcome.next.inj ht
    exact .refl s

omit K in
theorem State.sameBlocks_selectionRises (s : State) : s.SameBlocks s.selectionRises := by
  unfold State.selectionRises
  repeat' split
  all_goals constructor <;> rfl

omit K in
theorem execSelectionStart_sameBlocks (s t : State) (ht : execSelectionStart s = .next t) : s.SameBlocks t := by
  obtain rfl := Host.Outcome.next.inj ht
  repeat' split
  all_goals constructor <;> rfl

omit K in
theorem execResponseEnd_sameBlocks (s t : State) (ht : execResponseEnd s = .next t) : s.SameBlocks t := by
  unfold Machine.execResponseEnd at ht
  split at ht
  all_goals
    obtain rfl := Host.Outcome.next.inj ht
    constructor <;> rfl

theorem BlockKept.execAgeExpiry (k : SlotIdx) (s t : State) (h : P s) (ht : execAgeExpiry k s = .next t) : P t := by
  unfold Machine.execAgeExpiry at ht
  split at ht
  all_goals obtain rfl := Host.Outcome.next.inj ht
  · exact K.passTime s _ h
  · exact h

theorem BlockKept.execDiscardExpiry (p : PlaceIdx) (s t : State) (h : P s) (ht : execDiscardExpiry p s = .next t) :
    P t := by
  unfold Machine.execDiscardExpiry at ht
  split at ht
  all_goals obtain rfl := Host.Outcome.next.inj ht
  · exact K.passTime s _ h
  · exact h

/-! ### Every command, every step -/

/-- Every command keeps a property of the blocks that the shared operations keep. -/
theorem BlockKept.exec (c : Instr) (s t : State) (hA : A s) (h : P s) (ht : exec c s = .next t) : P t := by
  have same : ∀ {u : State}, s.SameBlocks u → P u := fun hu => K.same s _ h hu
  have frame := fun (code : Byte) (f : Frame) (d : Decider) => K.frame s code f d h
  cases c with
  | resetNAsserted => exact Host.Outcome.next.inj ht ▸ K.powerOn s
  | resetNReleased =>
    obtain rfl := Host.Outcome.next.inj ht
    split
    · exact same s.sameBlocks_enterLoading
    · exact h
  | headerReceived header => exact same (execHeaderReceived_sameBlocks header s t ht)
  | imageReadEnd rest => exact same (execImageReadEnd_sameBlocks rest s t ht)
  | checksEnd => exact same (execChecksEnd_sameBlocks s t ht)
  | installEvent => exact same (execInstallEvent_sameBlocks s t ht)
  | request r => exact K.execRequest r s t h ht
  | placement => exact K.execPlacement s t h ht
  | grant => exact K.execGrant s t h ht
  | forwardReadCompletion x => exact Host.Outcome.next.inj ht ▸ K.complete s x hA h
  | forwardWriteCompletion x => exact Host.Outcome.next.inj ht ▸ K.complete s x hA h
  | mergeReadCompletion x => exact Host.Outcome.next.inj ht ▸ K.complete s x hA h
  | lineWriteCompletion x => exact Host.Outcome.next.inj ht ▸ K.complete s x hA h
  | immediateReadCompletion x => exact Host.Outcome.next.inj ht ▸ K.complete s x hA h
  | gatherReadCompletion x => exact Host.Outcome.next.inj ht ▸ K.complete s x hA h
  | cancelledReadCompletion x => exact Host.Outcome.next.inj ht ▸ K.complete s x hA h
  | strayCompletion x => exact Host.Outcome.next.inj ht ▸ K.complete s x hA h
  | ageExpiry k => exact K.execAgeExpiry k s t h ht
  | discardExpiry p => exact K.execDiscardExpiry p s t h ht
  | shortFrame => exact Host.Outcome.next.inj ht ▸ same s.sameBlocks_selectionRises
  | unknownCodeFrame code f => exact Host.Outcome.next.inj ht ▸ frame code f _ id
  | getStatus f => exact Host.Outcome.next.inj ht ▸ frame _ f _ fun hs => K.reported s hs
  | getAperture f =>
    exact Host.Outcome.next.inj ht ▸ frame _ f _ fun hs => (apertureDecider_state f.args s).symm ▸ hs
  | getEvents f => exact Host.Outcome.next.inj ht ▸ frame _ f _ id
  | dumpSlots f => exact Host.Outcome.next.inj ht ▸ frame _ f _ id
  | dumpDeferred f => exact Host.Outcome.next.inj ht ▸ frame _ f _ id
  | stage f => exact Host.Outcome.next.inj ht ▸ frame _ f _ fun hs => K.stageDecider f.args s hs
  | commit f =>
    exact Host.Outcome.next.inj ht ▸ frame _ f _ fun hs => indexDecider_keeps _ f.args s hs fun i => K.commitAt s i hs
  | suspend f =>
    exact Host.Outcome.next.inj ht ▸ frame _ f _ fun hs => indexDecider_keeps _ f.args s hs fun i => K.suspendAt s i hs
  | resume f =>
    exact Host.Outcome.next.inj ht ▸ frame _ f _ fun hs => indexDecider_keeps _ f.args s hs fun i => K.resumeAt s i hs
  | retire f =>
    exact Host.Outcome.next.inj ht ▸ frame _ f _ fun hs => indexDecider_keeps _ f.args s hs fun i => K.retireAt s i hs
  | fence f => exact Host.Outcome.next.inj ht ▸ frame _ f _ fun hs => K.fenceDecider f.args s hs
  | clearEvents f =>
    exact Host.Outcome.next.inj ht ▸ frame _ f _ fun hs => K.same s _ hs (by constructor <;> rfl)
  | setTiming f => exact Host.Outcome.next.inj ht ▸ frame _ f _ fun hs => K.timingDecider f.args s hs
  | setAttention f =>
    exact Host.Outcome.next.inj ht ▸ frame _ f _ fun hs => K.same s _ hs (by constructor <;> rfl)
  | flashOpen f => exact Host.Outcome.next.inj ht ▸ frame _ f _ fun hs => K.openDecider f.args s hs
  | flashXfer f flashIn =>
    exact Host.Outcome.next.inj ht ▸ frame _ f _ fun hs => K.xferDecider flashIn f.args s hs
  | flashClose f =>
    exact Host.Outcome.next.inj ht ▸ frame _ f _ fun hs => K.same s _ hs s.sameBlocks_closeSession
  | restart f => exact Host.Outcome.next.inj ht ▸ frame _ f _ fun hs => K.restartDecider f.args s hs
  | selectionStart => exact same (execSelectionStart_sameBlocks s t ht)
  | selectionEnd => exact Host.Outcome.next.inj ht ▸ same s.sameBlocks_selectionRises
  | responseEnd => exact same (execResponseEnd_sameBlocks s t ht)

/-- So does every step. -/
theorem BlockKept.step (s t : State) (hA : A s) (h : P s) (ht : step s = .next t) : P t := by
  rcases hq : s.pending with _ | ⟨c, rest⟩
  · rw [step_of_idle s hq] at ht
    exact Host.Outcome.next.inj ht ▸ K.passTime s _ h
  · have hstep : Machine.step s = Machine.exec c (s.withPending rest) := by simp only [Machine.step, hq]
    have hsame : s.SameBlocks (s.withPending rest) := by constructor <;> rfl
    exact K.exec c (s.withPending rest) t (K.sameA s _ hA hsame) (K.same s _ h hsame) (hstep ▸ ht)

end

end Sys2Proof.Machine
end

section
/-! SUPPORT. Every step keeps the intake's law (R61, R67). -/

namespace Sys2Proof.Machine

/-- The law of the intake reads all but the touched-slot lists. -/
theorem State.IntakeLaw.retouched {s t : State} (h : s.IntakeLaw) (touched : IntakeRecord → List SlotIdx)
    (hintake : t.intake = s.intake.map (fun r => { r with touched := touched r }))
    (hcount : t.acceptCount = s.acceptCount) (hscatter : t.scatter = s.scatter) : t.IntakeLaw where
  capacity := by simpa [hintake] using h.capacity
  order := by simpa [hintake, Function.comp_def] using h.order
  positions := by simpa [hintake, hcount] using h.positions
  enabled := by simpa [hintake] using h.enabled
  oldest := by
    intro r hr
    rw [hintake, List.head?_map, Option.map_eq_some_iff] at hr
    obtain ⟨r', hr', rfl⟩ := hr
    exact h.oldest r' hr'
  waiting := by simpa [hintake, ← List.map_tail] using h.waiting
  engine := by simpa [hintake, hscatter] using h.engine
  cursor := by simpa [hintake, hscatter] using h.cursor

theorem State.IntakeLaw.congr {s t : State} (h : s.IntakeLaw) (hintake : t.intake = s.intake)
    (hcount : t.acceptCount = s.acceptCount) (hscatter : t.scatter = s.scatter) : t.IntakeLaw :=
  h.retouched (·.touched) (by simpa using hintake) hcount hscatter

theorem State.IntakeLaw.closeFor {s : State} (h : s.IntakeLaw) (causes : List Cause) : (s.closeFor causes).IntakeLaw := by
  obtain ⟨slots, opens, flushes, touched, heq⟩ := s.closeFor_frame causes
  rw [heq]
  exact h.retouched touched rfl rfl rfl

theorem State.IntakeLaw.settle {s : State} (h : s.IntakeLaw) (causes : List Cause) : (s.settle causes).IntakeLaw := by
  obtain ⟨_, _, _, _, _, _, hcount, hscatter, -⟩ := s.settle_keeps causes
  obtain ⟨_, _, _, hintake, -⟩ := s.settle_fields causes
  obtain ⟨slots, opens, flushes, touched, heq⟩ := s.closeFor_frame (s.endCauses causes)
  exact h.retouched touched (by rw [hintake, heq]) hcount hscatter

theorem nextEnabled_zero_isSome (data : List WriteByte) (h : ∃ b ∈ data, b.enabled = true) :
    (nextEnabled data 0).isSome = true := by
  obtain ⟨b, hb, hon⟩ := h
  obtain ⟨j, hj, rfl⟩ := List.getElem_of_mem hb
  rw [nextEnabled, List.find?_isSome]
  exact ⟨j, List.mem_range.mpr hj, by simp [List.getElem?_eq_getElem hj, hon]⟩

/-- A record with an enabled byte has a first cursor (R68). -/
theorem firstCursor_isSome (data : List WriteByte) (h : ∃ b ∈ data, b.enabled = true) :
    (firstCursor data).isSome = true := by
  rw [firstCursor, Option.isSome_map]
  exact nextEnabled_zero_isSome data h

/-- Accepting a write (R61, R62). -/
theorem State.IntakeLaw.accepts {s : State} (h : s.IntakeLaw) (r : Request) (i : ApertureIdx)
    (hroom : s.intake.length < 8) (hon : ∃ b ∈ r.data, b.enabled = true) : State.IntakeLaw { s with
      intake := s.intake ++ [s.newRecord r i]
      acceptCount := s.acceptCount + 1
      scatter := if s.intake.isEmpty then ⟨.placing, firstCursor r.data⟩ else s.scatter } where
  capacity := by
    rw [List.length_append]
    exact hroom
  order := by
    rw [List.map_append, List.pairwise_append]
    refine ⟨h.order, List.pairwise_singleton _ _, fun p hp q hq => ?_⟩
    obtain ⟨r', hr', rfl⟩ := List.mem_map.mp hp
    obtain rfl : q = s.acceptCount + 1 := List.mem_singleton.mp hq
    have := (h.positions r' hr').2
    omega
  positions := by
    intro r' hr'
    rcases List.mem_append.mp hr' with hr' | hr'
    · have := h.positions r' hr'
      exact ⟨this.1, this.2.trans (Nat.le_succ _)⟩
    · obtain rfl := List.mem_singleton.mp hr'
      exact ⟨Nat.le_add_left _ _, Nat.le_refl _⟩
  enabled := by
    intro r' hr'
    rcases List.mem_append.mp hr' with hr' | hr'
    · exact h.enabled r' hr'
    · obtain rfl := List.mem_singleton.mp hr'
      exact hon
  oldest := by
    intro r' hr'
    cases hi : s.intake with
    | nil =>
      simp only [hi, List.nil_append, List.head?_cons, Option.some.injEq] at hr'
      rw [← hr', State.newRecord, hi]
      rfl
    | cons o rest =>
      simp only [hi, List.cons_append, List.head?_cons, Option.some.injEq] at hr'
      exact h.oldest r' (by rw [hi, ← hr']; rfl)
  waiting := by
    intro r' hr'
    cases hi : s.intake with
    | nil => simp [hi] at hr'
    | cons o rest =>
      simp only [hi, List.cons_append, List.tail_cons] at hr'
      rcases List.mem_append.mp hr' with hr' | hr'
      · exact h.waiting r' (by rw [hi]; exact hr')
      · obtain rfl := List.mem_singleton.mp hr'
        simp [State.newRecord, hi]
  engine := by
    have hengine := h.engine
    cases hi : s.intake <;> simp_all
  cursor := by
    have hcursor := h.cursor
    cases hi : s.intake <;> simp_all [firstCursor_isSome]

/-- The oldest record stays, and the engine is at work on it. -/
theorem State.IntakeLaw.withOldest {s t : State} {r r' : IntakeRecord} {rest : List IntakeRecord} (h : s.IntakeLaw)
    (hi : s.intake = r :: rest) (hr : ∃ touched, r' = { r with touched := touched }) (hintake : t.intake = r' :: rest)
    (hcount : t.acceptCount = s.acceptCount) (hstate : t.scatter.state ≠ .idle)
    (hcursor : t.scatter.cursor.isSome = true) : t.IntakeLaw := by
  obtain ⟨touched, rfl⟩ := hr
  obtain ⟨hcapacity, horder, hpositions, henabled, holdest, hwaiting, -, -⟩ := h
  constructor <;> simp_all

/-- The last record leaves, and the engine goes idle (R63). -/
theorem State.recordLeaves_nil (s : State) (r : IntakeRecord) : (s.recordLeaves r []).1 =
    State.markSlots { s with intake := [], scatter := ⟨.idle, none⟩ }
      (if s.fence.waitsFor r then r.touched else []) := rfl

/-- A record leaves, and the next becomes SCATTERING (R63). -/
theorem State.recordLeaves_cons (s : State) (r n : IntakeRecord) (more : List IntakeRecord) :
    (s.recordLeaves r (n :: more)).1 = State.markSlots { s with
      intake := { n with state := .scattering } :: more, scatter := ⟨.placing, firstCursor n.data⟩ }
      (if s.fence.waitsFor r then r.touched else []) := rfl

/-- The oldest record leaves (R63). -/
theorem State.IntakeLaw.recordLeaves {s t : State} {r : IntakeRecord} {rest : List IntakeRecord} (h : s.IntakeLaw)
    (hi : s.intake = r :: rest) (r' : IntakeRecord) (hcount : t.acceptCount = s.acceptCount) :
    (t.recordLeaves r' rest).1.IntakeLaw := by
  obtain ⟨hcapacity, horder, hpositions, henabled, -, hwaiting, -, -⟩ := h
  rw [hi] at hcapacity horder hpositions henabled hwaiting
  cases rest with
  | nil =>
    obtain ⟨slots, hslots⟩ := State.markSlots_frame (if t.fence.waitsFor r' then r'.touched else [])
      { t with intake := [], scatter := ⟨.idle, none⟩ }
    rw [State.recordLeaves_nil, hslots]
    constructor <;> simp
  | cons n more =>
    obtain ⟨slots, hslots⟩ := State.markSlots_frame (if t.fence.waitsFor r' then r'.touched else [])
      { t with intake := { n with state := .scattering } :: more, scatter := ⟨.placing, firstCursor n.data⟩ }
    rw [State.recordLeaves_cons, hslots]
    have hfirst := firstCursor_isSome n.data (henabled n (by simp))
    simp only [List.length_cons, List.map_cons, List.pairwise_cons, List.forall_mem_cons, List.tail_cons] at *
    obtain ⟨-, hn, hmore⟩ := horder
    obtain ⟨-, hpn, hpmore⟩ := hpositions
    obtain ⟨-, hen, hemore⟩ := henabled
    exact {
      capacity := Nat.le_of_succ_le hcapacity
      order := List.pairwise_cons.mpr ⟨hn, hmore⟩
      positions := List.forall_mem_cons.mpr ⟨by simpa [hcount] using hpn, by simpa [hcount] using hpmore⟩
      enabled := List.forall_mem_cons.mpr ⟨hen, hemore⟩
      oldest := fun x hx => by
        obtain rfl := Option.some.inj hx
        rfl
      waiting := hwaiting.2
      engine := by simp
      cursor := by simpa using hfirst }

theorem IntakeRecord.touch_eq (r : IntakeRecord) (k : SlotIdx) : ∃ touched, r.touch k = { r with touched := touched } := by
  unfold IntakeRecord.touch
  split
  · exact ⟨r.touched, rfl⟩
  · exact ⟨_, rfl⟩

theorem State.IntakeLaw.placeInto {s t : State} {r : IntakeRecord} {rest : List IntakeRecord} (h : s.IntakeLaw)
    (hi : s.intake = r :: rest) (c : Cursor) (k : SlotIdx) (hcount : t.acceptCount = s.acceptCount) :
    (t.placeInto r rest c k).state.IntakeLaw := by
  unfold State.placeInto
  dsimp only
  split
  · exact h.withOldest hi (r.touch_eq k) rfl hcount (by simp) rfl
  · exact h.recordLeaves hi _ hcount

theorem State.IntakeLaw.scatterStep {s : State} (h : s.IntakeLaw) : s.scatterStep.state.IntakeLaw := by
  unfold State.scatterStep
  split
  · rename_i r rest c hi hc
    have waits : ∀ st, st ≠ .idle → State.IntakeLaw { s with scatter := ⟨st, some c⟩ } := fun st hst =>
      h.withOldest (r' := r) hi ⟨r.touched, rfl⟩ hi rfl hst rfl
    dsimp only
    repeat' split
    · exact h.placeInto hi c _ rfl
    · exact waits .waitMerge (by simp)
    · exact h.placeInto hi c _ rfl
    · exact waits .waitSlot (by simp)
  · exact h

/-- The law of the intake is one that every block's operation keeps. -/
theorem intakeLaw_kept : BlockKept (fun _ => True) State.IntakeLaw State.IntakeLaw where
  same _ _ h hst := h.congr hst.intake hst.acceptCount hst.scatter
  sameQ _ _ h hst := h.congr hst.intake hst.acceptCount hst.scatter
  sameA _ _ _ _ := trivial
  loose _ h := h
  powerOn _ := resetStateKeepsEveryLaw.intake.congr rfl rfl rfl
  settle _ causes h := h.settle causes
  closeFor _ causes h := h.closeFor causes
  stale _ _ h := h.congr rfl rfl rfl
  staleQ _ _ h := h.congr rfl rfl rfl
  scatters _ h := h.scatterStep
  accepts _ r i h hroom hon := h.accepts r i hroom hon
  frees _ _ _ h _ _ := h.congr rfl rfl rfl
  requeues _ _ _ _ h _ _ := h.congr rfl rfl rfl
  creates _ _ _ _ _ h _ _ := h.congr rfl rfl rfl
  immediates s _ _ h _ _ := by
    unfold State.takeImmediate
    split <;> exact h.congr rfl rfl rfl
  appendsWrite _ _ _ h _ _ _ := h.congr rfl rfl rfl
  appendsRead _ _ _ h _ _ _ := h.congr rfl rfl rfl
  issuesRead _ _ _ _ _ h _ _ _ _ _ := h.congr rfl rfl rfl
  issuesWrite _ _ _ _ _ h _ _ _ _ _ := ⟨h.congr rfl rfl rfl, h.congr rfl rfl rfl⟩
  issuesCombine s _ _ h _ _ := by
    unfold State.issueCombine
    dsimp only
    split <;> exact h.congr rfl rfl rfl
  issuesGather s _ _ h _ _ := by
    unfold State.issueGather
    split <;> exact h.congr rfl rfl rfl
  headCompletes _ _ _ _ _ h _ _ _ :=
    ⟨fun _ => h.congr rfl rfl rfl, fun _ _ _ => ⟨h.congr rfl rfl rfl, fun _ => h.congr rfl rfl rfl⟩⟩
  writeCompletes _ _ _ h _ _ := h.congr rfl rfl rfl
  slotFreed _ _ _ _ h _ _ := h.congr rfl rfl rfl
  slotMerged _ _ _ _ _ h _ _ _ := h.congr rfl rfl rfl
  slotReduced _ _ _ _ h _ _ _ := h.congr rfl rfl rfl
  notes s x h := by
    obtain ⟨f, heq⟩ := s.noteFault_frame x
    rw [heq]
    exact h.congr rfl rfl rfl
  immediateCompletes _ _ _ _ h _ _ :=
    ⟨fun _ => h.congr rfl rfl rfl, fun _ _ _ _ => ⟨fun _ => h.congr rfl rfl rfl, fun _ => h.congr rfl rfl rfl⟩⟩
  entryCompletes s t _ _ _ h _ _ := by
    refine ⟨fun _ => h.congr rfl rfl rfl, fun _ _ => ⟨fun _ _ _ _ => ⟨h.congr rfl rfl rfl, fun _ _ _ =>
      h.congr rfl rfl rfl⟩, fun _ _ _ => ⟨fun _ => h.congr rfl rfl rfl, fun _ => ?_⟩⟩⟩
    unfold State.afterCancel
    split <;> exact h.congr rfl rfl rfl
  cancels s which h := by
    obtain ⟨places, order, g, heq⟩ := s.cancelEntries_frame which
    rw [heq]
    exact h.congr rfl rfl rfl
  fences s _ h _ := by
    obtain ⟨slots, heq⟩ := State.markSlots_frame s.busySlots { s with fence := ⟨.pending, some _, false⟩ }
    rw [heq]
    exact h.congr rfl rfl rfl
  reported _ h := h.congr rfl rfl rfl

/-- Settles O9: the commands reach the intake through acceptance, the scatter engine and closing slots, and each keeps
its law. -/
theorem intakeLawKeptByEveryStep : Obligations.IntakeLawKeptByEveryStep := fun s t h ht =>
  intakeLaw_kept.step s t trivial h ht

end Sys2Proof.Machine
end

section
/-! SUPPORT. Every step keeps the fence's law (R95, R101). -/

namespace Sys2Proof.Machine

/-- A fence that is as it was, and marks only while it is PENDING. -/
theorem State.FenceLaw.withMarks {s t : State} (h : s.FenceLaw) (hfence : t.fence = s.fence)
    (hmarks : s.fence.state ≠ .pending → ∀ k, (t.slot k).mark = false) : t.FenceLaw where
  prior := by rw [hfence]; exact h.prior
  fault := by rw [hfence]; exact h.fault
  marks := by rw [hfence]; exact hmarks

theorem State.FenceLaw.congr {s t : State} (h : s.FenceLaw) (hfence : t.fence = s.fence) (hslots : t.slots = s.slots) :
    t.FenceLaw :=
  h.withMarks hfence fun hne k => by
    rw [State.slot_congr t s hslots]
    exact h.marks hne k

/-- One slot changes, and is not marked outside PENDING. -/
theorem State.FenceLaw.withSlot {s t : State} (h : s.FenceLaw) (k : SlotIdx) (x : Slot) (hfence : t.fence = s.fence)
    (hslots : t.slots = s.slots.set k x) (hx : s.fence.state ≠ .pending → x.mark = false) : t.FenceLaw :=
  h.withMarks hfence fun hne j => by
    rw [State.slot_congr t (s.setSlot k x) hslots, State.slot_setSlot]
    split
    · exact hx hne
    · exact h.marks hne j

theorem State.FenceLaw.closeSlot {s : State} (h : s.FenceLaw) (k : SlotIdx) (r : FlushReason) :
    (s.closeSlot k r).FenceLaw := by
  by_cases ho : (s.slot k).state = .opened
  · rw [s.closeSlot_opened k r ho]
    refine h.withSlot k _ rfl rfl fun hne => ?_
    have hcatches : s.fenceCatches k = false := Bool.eq_false_of_not_eq_true fun hc => by
      obtain ⟨_, _, _, _, _, hpending, _⟩ := (s.fenceCatches_iff k).mp hc
      exact hne hpending
    simp [Slot.closed, h.marks hne k, hcatches]
  · rw [s.closeSlot_of_ne k r ho]
    exact h

theorem State.FenceLaw.closeFor {s : State} (h : s.FenceLaw) (causes : List Cause) : (s.closeFor causes).FenceLaw := by
  unfold State.closeFor
  generalize closings causes s.openOrder = l
  induction l generalizing s with
  | nil => exact h
  | cons c l ih => exact ih (h.closeSlot c.1 c.2)

/-- A fence completes only when no slot is marked (R101). -/
theorem State.FenceLaw.fenceTest {s : State} (h : s.FenceLaw) : s.fenceTest.FenceLaw := by
  unfold State.fenceTest
  split
  · rename_i hcomplete
    obtain ⟨-, -, hmarks⟩ := (s.fenceComplete_iff).mp hcomplete
    exact {
      prior := by
        dsimp only
        split <;> simp
      fault := fun _ => rfl
      marks := fun _ => hmarks }
  · exact h

/-- The tests at the end of an event (R19, R101, R192). -/
theorem State.FenceLaw.tested {s : State} (h : s.FenceLaw) : s.fenceTest.drainTests.quiesceTest.FenceLaw := by
  obtain ⟨a, hdrain⟩ := State.drainTests_frame s.fenceTest
  obtain ⟨hslots, -, -, -, hfence, -⟩ := s.fenceTest.drainTests.quiesceTest_keeps
  refine h.fenceTest.congr (hfence.trans ?_) (hslots.trans ?_)
  all_goals rw [hdrain]

theorem State.FenceLaw.settle {s : State} (h : s.FenceLaw) (causes : List Cause) : (s.settle causes).FenceLaw := by
  obtain ⟨queue, hguard, -⟩ := s.guardProgress_frame
  obtain ⟨g, order, places, hgather⟩ := s.guardProgress.1.gatherProgress_frame
  have hprogress : s.guardProgress.1.gatherProgress.1.FenceLaw := by
    rw [hgather, hguard]
    exact h.congr rfl rfl
  rw [State.settle_eq]
  exact (hprogress.closeFor _).tested

/-- Marking slots belongs to a PENDING fence. -/
theorem State.FenceLaw.markSlots {s : State} (h : s.FenceLaw) (l : List SlotIdx)
    (hl : l = [] ∨ s.fence.state = .pending) : (s.markSlots l).FenceLaw := by
  rcases hl with rfl | hpending
  · exact h
  · obtain ⟨slots, heq⟩ := State.markSlots_frame l s
    rw [heq]
    exact h.withMarks rfl fun hne => absurd hpending hne

theorem Fence.pending_of_waitsFor (f : Fence) (r : IntakeRecord) (h : f.waitsFor r = true) : f.state = .pending := by
  simp only [Fence.waitsFor, Bool.and_eq_true, beq_iff_eq] at h
  exact h.1

theorem State.FenceLaw.recordLeaves {s : State} (h : s.FenceLaw) (r : IntakeRecord) (rest : List IntakeRecord) :
    (s.recordLeaves r rest).1.FenceLaw := by
  obtain ⟨records, engine, heq, -⟩ := s.recordLeaves_exact r rest
  rw [heq]
  have hleft : State.FenceLaw { s with intake := records, scatter := engine } := h.congr rfl rfl
  refine hleft.markSlots _ ?_
  split
  · rename_i hwaits
    exact .inr (s.fence.pending_of_waitsFor r hwaits)
  · exact .inl rfl

theorem State.FenceLaw.placeInto {s : State} (h : s.FenceLaw) (r : IntakeRecord) (rest : List IntakeRecord) (c : Cursor)
    (k : SlotIdx) : (s.placeInto r rest c k).state.FenceLaw := by
  have hplaced : (s.setSlot k ((s.slot k).placed (placementAt (s.aperture r.aperture).fields r c))).FenceLaw :=
    h.withSlot k _ rfl rfl fun hne => h.marks hne k
  unfold State.placeInto
  dsimp only
  split
  · exact hplaced.congr rfl rfl
  · exact hplaced.recordLeaves _ _

theorem State.FenceLaw.openSlot {s : State} (h : s.FenceLaw) (k : SlotIdx) (line : Addr) (i : ApertureIdx) :
    (s.openSlot k line i).FenceLaw := h.withSlot k _ rfl rfl fun _ => rfl

theorem State.FenceLaw.scatterStep {s : State} (h : s.FenceLaw) : s.scatterStep.state.FenceLaw := by
  unfold State.scatterStep
  dsimp only
  repeat' split
  · exact h.placeInto _ _ _ _
  · exact h.congr rfl rfl
  · exact (h.openSlot _ _ _).placeInto _ _ _ _
  · exact h.congr rfl rfl
  · exact h

theorem State.FenceLaw.noteFault {s : State} (h : s.FenceLaw) (x : Slot) : (s.noteFault x).FenceLaw := by
  unfold State.noteFault
  split
  · rename_i hpending
    exact {
      prior := h.prior
      fault := fun hne => absurd hpending.1 hne
      marks := h.marks }
  · exact h

theorem State.FenceLaw.reported {s : State} (h : s.FenceLaw) : State.FenceLaw { s with fence := s.fence.reported } := by
  have cleared : s.fence.state ≠ .pending → State.FenceLaw { s with fence := Fence.cleared } := fun hne => {
    prior := by simp [Fence.cleared]
    fault := fun _ => rfl
    marks := fun _ => h.marks hne }
  unfold Fence.reported
  split
  · rename_i hdone
    exact cleared (by simp [hdone])
  · rename_i hdone
    exact cleared (by simp [hdone])
  · exact h
  · exact h

/-- The law of the fence is one that every block's operation keeps. -/
theorem fenceLaw_kept : BlockKept (fun _ => True) State.FenceLaw State.FenceLaw where
  same _ _ h hst := h.congr hst.fence hst.slots
  sameQ _ _ h hst := h.congr hst.fence hst.slots
  sameA _ _ _ _ := trivial
  loose _ h := h
  powerOn _ := resetStateKeepsEveryLaw.fence.congr rfl rfl
  settle _ causes h := h.settle causes
  closeFor _ causes h := h.closeFor causes
  stale _ _ h := h.congr rfl rfl
  staleQ _ _ h := h.congr rfl rfl
  scatters _ h := h.scatterStep
  accepts _ _ _ h _ _ := h.congr rfl rfl
  frees _ _ _ h _ _ := h.congr rfl rfl
  requeues _ _ _ _ h _ _ := h.congr rfl rfl
  creates _ _ _ _ _ h _ _ := h.congr rfl rfl
  immediates s _ _ h _ _ := by
    unfold State.takeImmediate
    split <;> exact h.congr rfl rfl
  appendsWrite _ _ _ h _ _ _ := h.congr rfl rfl
  appendsRead _ _ _ h _ _ _ := h.congr rfl rfl
  issuesRead _ _ _ _ _ h _ _ _ _ _ := h.congr rfl rfl
  issuesWrite _ _ _ _ _ h _ _ _ _ _ := ⟨h.congr rfl rfl, h.congr rfl rfl⟩
  issuesCombine s g k h _ _ := by
    have hslot := fun x : Slot => fun hx : x.mark = (s.slot k).mark => h.withSlot (t := s.setSlot k x) k x rfl rfl
      fun hne => hx.trans (h.marks hne k)
    unfold State.issueCombine
    dsimp only
    split <;> exact (hslot { s.slot k with request := .outstanding g } rfl).congr rfl rfl
  issuesGather s _ _ h _ _ := by
    unfold State.issueGather
    split <;> exact h.congr rfl rfl
  headCompletes _ _ _ _ _ h _ _ _ :=
    ⟨fun _ => h.congr rfl rfl, fun _ _ _ => ⟨h.congr rfl rfl, fun _ => h.congr rfl rfl⟩⟩
  writeCompletes _ _ _ h _ _ := h.congr rfl rfl
  slotFreed _ _ _ k h _ _ := h.withSlot k Slot.cleared rfl rfl fun _ => rfl
  slotMerged _ _ _ k _ h _ _ _ := h.withSlot k _ rfl rfl fun hne => h.marks hne k
  slotReduced _ _ _ k h _ _ _ := h.withSlot k _ rfl rfl fun hne => h.marks hne k
  notes _ x h := h.noteFault x
  immediateCompletes _ _ _ _ h _ _ :=
    ⟨fun _ => h.congr rfl rfl, fun _ _ _ _ => ⟨fun _ => h.congr rfl rfl, fun _ => h.congr rfl rfl⟩⟩
  entryCompletes s t _ _ _ h _ _ := by
    refine ⟨fun _ => h.congr rfl rfl, fun _ _ => ⟨fun _ _ _ _ => ⟨h.congr rfl rfl, fun _ _ _ => h.congr rfl rfl⟩,
      fun _ _ _ => ⟨fun _ => h.congr rfl rfl, fun _ => ?_⟩⟩⟩
    unfold State.afterCancel
    split <;> exact h.congr rfl rfl
  cancels s which h := by
    obtain ⟨places, order, g, heq⟩ := s.cancelEntries_frame which
    rw [heq]
    exact h.congr rfl rfl
  fences s ps _ _ := by
    obtain ⟨slots, heq⟩ := State.markSlots_frame s.busySlots { s with fence := ⟨.pending, some ps, false⟩ }
    rw [heq]
    constructor <;> simp
  reported _ h := h.reported

/-- Settles O11: slots are marked while a fence is PENDING alone, and a fence completes with none marked. -/
theorem fenceLawKeptByEveryStep : Obligations.FenceLawKeptByEveryStep := fun s t h ht =>
  fenceLaw_kept.step s t trivial h ht

end Sys2Proof.Machine
end

section
/-! SUPPORT. Every step keeps the forward queue's law (R40, R132, R133). -/

namespace Sys2Proof.Machine

/-- The port holds a pass-through read (R40). -/
def State.holdsForward (s : State) : Prop := ∃ h, s.port = .holding h ∧ h.service = .passThrough

/-- Every tag of the read head in `t` is one in `s`. -/
def State.ReadTagsFrom (t s : State) : Prop := ∀ g r, t.tag g = some r → r.owner = .readHead → s.tag g = some r

theorem State.readTagsFrom_of_tags {s t : State} (h : t.tags = s.tags) : t.ReadTagsFrom s := fun g _ hr _ =>
  (State.tag_congr s t h.symm g).trans hr

theorem State.readTagsFrom_setTag {s t : State} (g : Tag) (x : Option TagRecord) (h : t.tags = s.tags.set g x)
    (hx : ∀ r, x = some r → r.owner ≠ .readHead) : t.ReadTagsFrom s := fun j r hr ho => by
  rw [State.tag_congr t (s.setTag g x) h, State.tag_setTag] at hr
  split at hr
  · exact absurd ho (hx r hr)
  · exact hr

theorem not_holdsForward_of_idle {s : State} (h : s.port = .idle) : ¬ s.holdsForward := by
  rintro ⟨r, hr, -⟩
  rw [h] at hr
  cases hr

theorem not_holdsForward_of_holdsImmediate {s : State} (h : s.holdsImmediate) : ¬ s.holdsForward := by
  rintro ⟨r, hr, hservice⟩
  obtain ⟨r', i, hr', hservice'⟩ := h
  rw [hr'] at hr
  cases hr
  rw [hservice'] at hservice
  cases hservice

/-- What is left of the law of the forward queue within an event, when a BEHIND entry can be the head. -/
structure State.ForwardCore (s : State) : Prop where
  capacity : s.forward.length ≤ 6
  behind : ∀ e ∈ s.forward.tail, e.state = .behind
  writesAhead : ∀ e ∈ s.forward.dropLast, e.kind = .write
  heldRead : (∃ e ∈ s.forward, e.kind = .read) ↔ s.holdsForward
  readTag : ∀ t r, s.tag t = some r → r.owner = .readHead →
    ∃ e, s.forward.head? = some e ∧ e.kind = .read ∧ ∃ l ∈ e.lines, l.mark = .granted t

theorem State.ForwardLaw.core {s : State} (h : s.ForwardLaw) : s.ForwardCore :=
  ⟨h.capacity, h.behind, h.writesAhead, h.heldRead, h.readTag⟩

theorem State.ForwardCore.law {s : State} (h : s.ForwardCore)
    (hhead : ∀ e, s.forward.head? = some e → e.state ≠ .behind) : s.ForwardLaw :=
  ⟨h.capacity, h.behind, hhead, h.writesAhead, h.heldRead, h.readTag⟩

/-- The law reads the kind, the state and the lines of the entries, and nothing more of the tags than the read head's. -/
theorem State.ForwardCore.congr {s t : State} (h : s.ForwardCore) (hforward : t.forward = s.forward)
    (hport : t.holdsForward ↔ s.holdsForward) (htags : t.ReadTagsFrom s) : t.ForwardCore where
  capacity := by rw [hforward]; exact h.capacity
  behind := by rw [hforward]; exact h.behind
  writesAhead := by rw [hforward]; exact h.writesAhead
  heldRead := by rw [hforward, hport]; exact h.heldRead
  readTag := fun g r hr ho => by rw [hforward]; exact h.readTag g r (htags g r hr ho) ho

theorem State.ForwardLaw.congr {s t : State} (h : s.ForwardLaw) (hforward : t.forward = s.forward)
    (hport : t.holdsForward ↔ s.holdsForward) (htags : t.ReadTagsFrom s) : t.ForwardLaw :=
  (h.core.congr hforward hport htags).law (by rw [hforward]; exact h.head)

theorem State.ForwardLaw.same {s t : State} (h : s.ForwardLaw) (hforward : t.forward = s.forward)
    (hport : t.port = s.port) (htags : t.tags = s.tags) : t.ForwardLaw :=
  h.congr hforward (by rw [State.holdsForward, State.holdsForward, hport]) (State.readTagsFrom_of_tags htags)

theorem State.ForwardCore.same {s t : State} (h : s.ForwardCore) (hforward : t.forward = s.forward)
    (hport : t.port = s.port) (htags : t.tags = s.tags) : t.ForwardCore :=
  h.congr hforward (by rw [State.holdsForward, State.holdsForward, hport]) (State.readTagsFrom_of_tags htags)

/-- A slot leaves every snapshot (R137). -/
theorem State.ForwardLaw.dropSlot {s t : State} (h : s.ForwardLaw) (k : SlotIdx)
    (hforward : t.forward = s.forward.map (fun e => e.dropSlot k)) (hport : t.port = s.port)
    (htags : t.ReadTagsFrom s) : t.ForwardLaw where
  capacity := by simpa [hforward] using h.capacity
  behind := by simpa [hforward, ← List.map_tail, ForwardEntry.dropSlot] using h.behind
  head := by
    intro e he
    rw [hforward, List.head?_map, Option.map_eq_some_iff] at he
    obtain ⟨e', he', rfl⟩ := he
    exact h.head e' he'
  writesAhead := by
    intro e he
    rw [hforward, ← List.map_dropLast] at he
    obtain ⟨e', he', rfl⟩ := List.mem_map.mp he
    exact h.writesAhead e' he'
  heldRead := by
    rw [hforward, hport, ← h.heldRead]
    simp [ForwardEntry.dropSlot]
  readTag := by
    intro g r hr ho
    obtain ⟨e, he, hkind, hl⟩ := h.readTag g r (htags g r hr ho) ho
    exact ⟨e.dropSlot k, by rw [hforward, List.head?_map, he]; rfl, hkind, hl⟩

/-- A BEHIND entry that has become the head takes its step and is BEHIND no more (R133, R136, R137). -/
theorem State.headStep_eq (s : State) (e : ForwardEntry) :
    ∃ st snapshot, (s.headStep e).1 = { e with state := st, snapshot := snapshot } ∧ st ≠ .behind := by
  have went : ∀ ks : List SlotIdx, (if ks.isEmpty then ForwardState.issuing else .guardSlots) ≠ .behind := fun ks => by
    split <;> simp
  have stays : e.state ≠ .behind → ∃ st snapshot, e = { e with state := st, snapshot := snapshot } ∧ st ≠ .behind :=
    fun hst => ⟨e.state, e.snapshot, rfl, hst⟩
  unfold State.headStep
  dsimp only
  split
  · split
    · exact ⟨_, e.snapshot, rfl, by simp⟩
    · split
      · exact ⟨_, _, rfl, went _⟩
      · exact ⟨_, e.snapshot, rfl, by simp⟩
  · rename_i hst
    split
    · exact ⟨_, e.snapshot, rfl, by simp⟩
    · split
      · exact ⟨_, _, rfl, went _⟩
      · exact stays (by simp [hst])
  · rename_i hst
    split
    · exact ⟨_, e.snapshot, rfl, by simp⟩
    · exact stays (by simp [hst])
  · rename_i hst
    exact stays (by simp [hst])
  · rename_i hst
    exact stays (by simp [hst])

theorem State.ForwardCore.settle {s : State} (h : s.ForwardCore) (causes : List Cause) : (s.settle causes).ForwardLaw := by
  obtain ⟨_, _, _, _, _, hport, _, _, _, htags, -⟩ := s.settle_keeps causes
  obtain ⟨_, _, _, _, hforward, -⟩ := s.settle_fields causes
  cases hf : s.forward with
  | nil =>
    have hsame : (s.settle causes).forward = s.forward := by
      rw [hforward, State.guardProgress, hf]
      exact hf
    refine (h.same hsame hport htags).law fun e he => ?_
    rw [hsame, hf] at he
    cases he
  | cons e rest =>
    obtain ⟨hcapacity, hbehind, hwrites, hheld, htag⟩ := h
    obtain ⟨st, snapshot, hstep, hst⟩ := s.headStep_eq e
    have hsettled : (s.settle causes).forward = { e with state := st, snapshot := snapshot } :: rest := by
      rw [hforward, State.guardProgress, hf, ← hstep]
    rw [hf] at hcapacity hbehind hwrites hheld htag
    exact {
      capacity := by rw [hsettled]; exact hcapacity
      behind := by rw [hsettled]; exact hbehind
      head := by
        intro d hd
        rw [hsettled] at hd
        cases hd
        exact hst
      writesAhead := by
        rw [hsettled]
        cases rest with
        | nil => simp
        | cons n more => simpa using hwrites
      heldRead := by
        rw [hsettled, hport]
        simpa [State.holdsForward] using hheld
      readTag := by
        intro g r hr ho
        obtain ⟨d, hd, hkind, hl⟩ := htag g r ((State.tag_congr s _ htags.symm g).trans hr) ho
        cases hd
        exact ⟨{ e with state := st, snapshot := snapshot }, by rw [hsettled]; rfl, hkind, hl⟩ }

/-- With no pass-through read held, every entry is a WRITE. -/
theorem State.ForwardLaw.writes {s : State} (h : s.ForwardLaw) (hport : ¬ s.holdsForward) :
    ∀ e ∈ s.forward, e.kind = .write := fun e he => by
  cases hkind : e.kind with
  | read => exact absurd (h.heldRead.mp ⟨e, he, hkind⟩) hport
  | write => rfl

/-- A new entry at the end of the queue (R132): a READ exactly when the port now holds it. -/
theorem State.ForwardLaw.append {s t : State} (h : s.ForwardLaw) (hidle : s.port = .idle) (e : ForwardEntry)
    (hroom : s.forward.length < 6) (he : e.state = .behind) (hforward : t.forward = s.forward ++ [e])
    (hport : e.kind = .read ↔ t.holdsForward) (htags : t.tags = s.tags) : t.ForwardCore where
  capacity := by simpa [hforward] using hroom
  behind := by
    intro d hd
    have hbehind := h.behind
    cases hf : s.forward with
    | nil => simp [hforward, hf] at hd
    | cons x rest =>
      rw [hforward, hf, List.cons_append, List.tail_cons] at hd
      rw [hf, List.tail_cons] at hbehind
      rcases List.mem_append.mp hd with hd | hd
      · exact hbehind d hd
      · exact List.mem_singleton.mp hd ▸ he
  writesAhead := by
    rw [hforward, List.dropLast_concat]
    exact h.writes (not_holdsForward_of_idle hidle)
  heldRead := by
    rw [← hport, hforward]
    refine ⟨?_, fun hread => ⟨e, by simp, hread⟩⟩
    rintro ⟨d, hd, hread⟩
    rcases List.mem_append.mp hd with hd | hd
    · rw [h.writes (not_holdsForward_of_idle hidle) d hd] at hread
      cases hread
    · exact List.mem_singleton.mp hd ▸ hread
  readTag := by
    intro g r hr ho
    obtain ⟨d, hd, hkind, hl⟩ := h.readTag g r ((State.tag_congr s t htags.symm g).trans hr) ho
    exact ⟨d, by rw [hforward, List.head?_append, hd]; rfl, hkind, hl⟩

/-! ### The line marks -/

/-- A grant leaves the other grants on the list (R135). -/
theorem granted_mem_markGranted (g t : Tag) (ls : List ForwardLine) (h : ∃ l ∈ ls, l.mark = .granted t) :
    ∃ l ∈ markGranted g ls, l.mark = .granted t := by
  induction ls with
  | nil => exact h
  | cons a ls ih =>
    rw [markGranted]
    obtain ⟨l, hl, hmark⟩ := h
    split
    · rename_i hunissued
      rcases List.mem_cons.mp hl with rfl | hl
      · rw [hunissued] at hmark
        cases hmark
      · exact ⟨l, List.mem_cons_of_mem _ hl, hmark⟩
    · rcases List.mem_cons.mp hl with rfl | hl
      · exact ⟨l, List.mem_cons_self, hmark⟩
      · obtain ⟨l', hl', hmark'⟩ := ih ⟨l, hl, hmark⟩
        exact ⟨l', List.mem_cons_of_mem _ hl', hmark'⟩

/-- The granted line is on the list under its tag (R135). -/
theorem new_granted_mem_markGranted (g : Tag) (ls : List ForwardLine) (l : ForwardLine)
    (h : firstUnissued ls = some l) : ∃ l ∈ markGranted g ls, l.mark = .granted g := by
  induction ls with
  | nil => cases h
  | cons a ls ih =>
    rw [markGranted]
    by_cases hunissued : a.mark = .unissued
    · rw [if_pos hunissued]
      exact ⟨_, List.mem_cons_self, rfl⟩
    · rw [if_neg hunissued]
      have hrest : firstUnissued ls = some l := by
        rw [firstUnissued, List.find?_cons_of_neg (by simpa using hunissued)] at h
        exact h
      obtain ⟨l', hl', hmark⟩ := ih hrest
      exact ⟨l', List.mem_cons_of_mem _ hl', hmark⟩

/-- A completion leaves the grants under other tags on the list (R140). -/
theorem granted_mem_markCompleted (g t : Tag) (o : MemOutcome) (ls : List ForwardLine) (hne : t ≠ g)
    (h : ∃ l ∈ ls, l.mark = .granted t) : ∃ l ∈ markCompleted g o ls, l.mark = .granted t := by
  obtain ⟨l, hl, hmark⟩ := h
  refine ⟨l, List.mem_map.mpr ⟨l, hl, if_neg fun hg => hne ?_⟩, hmark⟩
  rw [hmark] at hg
  exact LineMark.granted.inj hg

theorem anyGranted_of_mem (t : Tag) (ls : List ForwardLine) (h : ∃ l ∈ ls, l.mark = .granted t) :
    anyGranted ls = true := by
  obtain ⟨l, hl, hmark⟩ := h
  exact List.any_eq_true.mpr ⟨l, hl, by rw [hmark]⟩

theorem ForwardEntry.completed_eq (e : ForwardEntry) (c : Completion) (line : Addr) : ∃ st buf,
    e.completed c line = { e with lines := markCompleted c.tag c.outcome e.lines, state := st, buffer := buf } ∧
      (e.state ≠ .behind → st ≠ .behind) := by
  unfold ForwardEntry.completed
  cases c.outcome
  · exact ⟨e.state, _, rfl, id⟩
  · exact ⟨.returning, e.buffer, rfl, fun _ => by simp⟩

theorem ForwardEntry.grantedRead_eq (e : ForwardEntry) (g : Tag) : ∃ st,
    e.grantedRead g = { e with lines := markGranted g e.lines, state := st } ∧ (e.state ≠ .behind → st ≠ .behind) := by
  unfold ForwardEntry.grantedRead
  split
  · exact ⟨.returning, rfl, fun _ => by simp⟩
  · exact ⟨e.state, rfl, id⟩

/-! ### Grants and completions -/

/-- The head changes in its state, its lines and its buffer. -/
theorem State.ForwardLaw.withHead {s t : State} {e : ForwardEntry} {rest : List ForwardEntry} (h : s.ForwardLaw)
    (hf : s.forward = e :: rest) (e' : ForwardEntry) (hkind : e'.kind = e.kind) (hstate : e'.state ≠ .behind)
    (hforward : t.forward = e' :: rest) (hport : t.port = s.port)
    (htags : ∀ g r, t.tag g = some r → r.owner = .readHead → e.kind = .read ∧ ∃ l ∈ e'.lines, l.mark = .granted g) :
    t.ForwardLaw := by
  obtain ⟨hcapacity, hbehind, -, hwrites, hheld, -⟩ := h
  rw [hf] at hcapacity hbehind hwrites hheld
  exact {
    capacity := by rw [hforward]; exact hcapacity
    behind := by rw [hforward]; exact hbehind
    head := by
      intro d hd
      rw [hforward] at hd
      cases hd
      exact hstate
    writesAhead := by
      rw [hforward]
      cases rest with
      | nil => simp
      | cons n more =>
        rw [List.dropLast_cons_cons, List.forall_mem_cons] at hwrites ⊢
        exact ⟨hkind.trans hwrites.1, hwrites.2⟩
    heldRead := by
      rw [hforward, hport, ← hheld]
      simp [hkind]
    readTag := by
      intro g r hr ho
      obtain ⟨hread, hl⟩ := htags g r hr ho
      exact ⟨e', by rw [hforward]; rfl, hkind.trans hread, hl⟩ }

/-- The tags of the read head are lines of the head that are granted (R149). -/
theorem State.ForwardLaw.granted {s : State} {e : ForwardEntry} {rest : List ForwardEntry} (h : s.ForwardLaw)
    (hf : s.forward = e :: rest) (g : Tag) (r : TagRecord) (hr : s.tag g = some r) (ho : r.owner = .readHead) :
    e.kind = .read ∧ ∃ l ∈ e.lines, l.mark = .granted g := by
  obtain ⟨d, hd, hread, hl⟩ := h.readTag g r hr ho
  rw [hf] at hd
  cases hd
  exact ⟨hread, hl⟩

/-- A READ at the head is alone in the queue (R132). -/
theorem State.ForwardLaw.read_alone {s : State} {e : ForwardEntry} {rest : List ForwardEntry} (h : s.ForwardLaw)
    (hf : s.forward = e :: rest) (hread : e.kind = .read) : rest = [] := by
  cases rest with
  | nil => rfl
  | cons n more =>
    have := h.writesAhead e (by rw [hf]; simp)
    rw [hread] at this
    cases this

theorem State.ForwardLaw.head_ne {s : State} {e : ForwardEntry} {rest : List ForwardEntry} (h : s.ForwardLaw)
    (hf : s.forward = e :: rest) : e.state ≠ .behind := h.head e (by rw [hf]; rfl)

theorem State.ForwardLaw.issuesRead {s : State} {e : ForwardEntry} {rest : List ForwardEntry} (h : s.ForwardLaw)
    (hf : s.forward = e :: rest) (g : Tag) (l : ForwardLine) (hl : firstUnissued e.lines = some l)
    (hread : e.kind = .read) : State.ForwardLaw { s.setTag g (some ⟨.forward, .read, l.line, .readHead⟩) with
      forward := e.grantedRead g :: rest } := by
  obtain ⟨st, heq, hst⟩ := e.grantedRead_eq g
  refine h.withHead hf (e.grantedRead g) (by rw [heq]) (by rw [heq]; exact hst (h.head_ne hf)) rfl rfl
    fun j r hr ho => ⟨hread, ?_⟩
  rw [heq]
  have hj : (s.setTag g (some ⟨.forward, .read, l.line, .readHead⟩)).tag j = some r := hr
  rw [State.tag_setTag] at hj
  split at hj
  · rename_i hgj
    subst hgj
    exact new_granted_mem_markGranted g e.lines l hl
  · exact granted_mem_markGranted g j e.lines (h.granted hf j r hj ho).2

theorem State.ForwardLaw.issuesWrite {s : State} {e : ForwardEntry} {rest : List ForwardEntry} (h : s.ForwardLaw)
    (hf : s.forward = e :: rest) (g : Tag) (l : ForwardLine) (hwrite : e.kind = .write) :
    State.ForwardLaw { s.setTag g (some ⟨.forward, .write, l.line, .outstandingWrite⟩) with
      forward := e.granted g :: rest } ∧
    State.ForwardCore { s.setTag g (some ⟨.forward, .write, l.line, .outstandingWrite⟩) with forward := rest } := by
  have hfrom : State.ReadTagsFrom (s.setTag g (some ⟨.forward, .write, l.line, .outstandingWrite⟩)) s :=
    State.readTagsFrom_setTag g _ rfl (by simp)
  have hnone : ∀ j r, (s.setTag g (some ⟨.forward, .write, l.line, .outstandingWrite⟩)).tag j = some r →
      r.owner = .readHead → False := fun j r hr ho => by
    have := (h.granted hf j r (hfrom j r hr ho) ho).1
    rw [hwrite] at this
    cases this
  have hstate := h.head_ne hf
  refine ⟨h.withHead hf (e.granted g) rfl hstate rfl rfl fun j r hr ho => (hnone j r hr ho).elim, ?_⟩
  obtain ⟨hcapacity, hbehind, -, hwrites, hheld, -⟩ := h
  rw [hf] at hcapacity hbehind hwrites hheld
  exact {
    capacity := Nat.le_of_succ_le hcapacity
    behind := fun d hd => hbehind d (List.mem_of_mem_tail hd)
    writesAhead := fun d hd => hwrites d (by
      cases rest with
      | nil => cases hd
      | cons n more => exact List.mem_cons_of_mem _ hd)
    heldRead := by
      show _ ↔ s.holdsForward
      rw [State.holdsForward, ← hheld]
      simp [hwrite]
    readTag := fun j r hr ho => (hnone j r hr ho).elim }

theorem State.ForwardLaw.headCompletes {s : State} (h : s.ForwardLaw) (rec : TagRecord) (c : Completion)
    (hrec : s.tag c.tag = some rec) (ho : rec.owner = .readHead) :
    (s.forward = [] → (s.setTag c.tag none).ForwardLaw) ∧
    ∀ e rest, s.forward = e :: rest →
      State.ForwardLaw { s.setTag c.tag none with forward := e.completed c rec.line :: rest } ∧
      (anyGranted (e.completed c rec.line).lines = false →
        State.ForwardCore { s.setTag c.tag none with forward := rest, port := .idle }) := by
  have hfrom : State.ReadTagsFrom (s.setTag c.tag none) s := State.readTagsFrom_setTag c.tag none rfl (by simp)
  refine ⟨fun hf => h.congr rfl .rfl hfrom, fun e rest hf => ?_⟩
  obtain ⟨st, buf, heq, hst⟩ := e.completed_eq c rec.line
  obtain rfl := h.read_alone hf (h.granted hf c.tag rec hrec ho).1
  have hleft : ∀ j r, (s.setTag c.tag none).tag j = some r → r.owner = .readHead →
      e.kind = .read ∧ ∃ l ∈ (e.completed c rec.line).lines, l.mark = .granted j := fun j r hr ho' => by
    have hne : j ≠ c.tag := fun hj => by
      rw [hj, State.tag_setTag_self] at hr
      cases hr
    obtain ⟨hread, hl⟩ := h.granted hf j r (hfrom j r hr ho') ho'
    rw [heq]
    exact ⟨hread, granted_mem_markCompleted c.tag j c.outcome e.lines hne hl⟩
  refine ⟨h.withHead hf _ (by rw [heq]) (by rw [heq]; exact hst (h.head_ne hf)) rfl rfl hleft, fun hdone => ?_⟩
  exact {
    capacity := Nat.zero_le _
    behind := by simp
    writesAhead := by simp
    heldRead := ⟨by simp, fun hheld => (not_holdsForward_of_idle rfl hheld).elim⟩
    readTag := fun j r hr ho' => by
      rw [anyGranted_of_mem j _ (hleft j r hr ho').2] at hdone
      cases hdone }

/-- The law of the forward queue is one that every block's operation keeps; the head may be BEHIND until it settles. -/
theorem forwardLaw_kept : BlockKept (fun _ => True) State.ForwardLaw State.ForwardCore where
  same _ _ h hst := h.same hst.forward hst.port hst.tags
  sameQ _ _ h hst := h.same hst.forward hst.port hst.tags
  sameA _ _ _ _ := trivial
  loose _ h := h.core
  powerOn _ := resetStateKeepsEveryLaw.forward.same rfl rfl rfl
  settle _ causes h := h.settle causes
  closeFor s causes h := by
    obtain ⟨_, _, _, _, heq⟩ := s.closeFor_frame causes
    rw [heq]
    exact h.same rfl rfl rfl
  stale _ _ h := h.same rfl rfl rfl
  staleQ _ _ h := h.same rfl rfl rfl
  scatters s h := by
    obtain ⟨_, _, _, _, heq⟩ := s.scatterStep_frame
    rw [heq]
    exact h.same rfl rfl rfl
  accepts _ _ _ h _ _ := h.same rfl rfl rfl
  frees _ _ _ h _ _ := h.same rfl rfl rfl
  requeues _ _ _ _ h _ _ := h.core.same rfl rfl rfl
  creates _ _ _ _ _ h _ _ := h.core.same rfl rfl rfl
  immediates s r i h hidle _ := by
    have himmediate : (s.hold r (.immediate i)).holdsImmediate := ⟨_, i, rfl, rfl⟩
    have hheld := h.congr (t := s.hold r (.immediate i)) rfl
      ⟨fun hf => (not_holdsForward_of_holdsImmediate himmediate hf).elim,
        fun hf => (not_holdsForward_of_idle hidle hf).elim⟩ (State.readTagsFrom_of_tags rfl)
    unfold State.takeImmediate
    split <;> exact hheld.same rfl rfl rfl
  appendsWrite s r guarded h hidle hroom hwrite := h.append hidle _ hroom rfl rfl
    ⟨fun hread => absurd (hread.symm.trans hwrite) (by simp), fun hf => (not_holdsForward_of_idle hidle hf).elim⟩ rfl
  appendsRead s r guarded h hidle hroom hread := h.append hidle _ hroom rfl rfl
    ⟨fun _ => ⟨_, rfl, rfl⟩, fun _ => hread⟩ rfl
  issuesRead _ g _ _ l h _ hf _ hl hread := h.issuesRead hf g l hl hread
  issuesWrite _ g _ _ l h _ hf _ _ hwrite := h.issuesWrite hf g l hwrite
  issuesCombine s g k h _ _ := by
    unfold State.issueCombine
    dsimp only
    split <;> exact h.congr rfl .rfl (State.readTagsFrom_setTag g _ rfl (by simp))
  issuesGather s g line h _ _ := by
    unfold State.issueGather
    split
    · exact h.congr rfl .rfl (State.readTagsFrom_setTag g _ rfl (by simp))
    · exact h.congr rfl .rfl (State.readTagsFrom_setTag g _ rfl (by simp))
    all_goals exact h
  headCompletes _ _ rec c _ h hrec ho ht := by
    subst ht
    exact h.headCompletes rec c hrec ho
  writeCompletes _ t _ h _ _ := h.congr rfl .rfl (State.readTagsFrom_setTag t none rfl (by simp))
  slotFreed _ t _ k h _ _ := h.dropSlot k rfl rfl (State.readTagsFrom_setTag t none rfl (by simp))
  slotMerged _ t _ _ _ h _ _ _ := h.congr rfl .rfl (State.readTagsFrom_setTag t none rfl (by simp))
  slotReduced _ t _ _ h _ _ _ := h.congr rfl .rfl (State.readTagsFrom_setTag t none rfl (by simp))
  notes s x h := by
    obtain ⟨f, heq⟩ := s.noteFault_frame x
    rw [heq]
    exact h.same rfl rfl rfl
  immediateCompletes s t _ _ h _ _ := by
    have hfrom : ∀ g port, State.ReadTagsFrom { s.setTag t none with gather := g, port := port } s := fun g port =>
      State.readTagsFrom_setTag t none rfl (by simp)
    refine ⟨fun _ => h.congr rfl .rfl (hfrom s.gather s.port), fun _ _ _ himmediate =>
      ⟨fun _ => h.congr rfl .rfl (hfrom _ s.port), fun _ => h.core.congr rfl ?_ (hfrom _ _)⟩⟩
    exact ⟨fun hf => (not_holdsForward_of_idle rfl hf).elim,
      fun hf => (not_holdsForward_of_holdsImmediate himmediate hf).elim⟩
  entryCompletes s t _ _ p h _ _ := by
    have hfreed : (s.setTag t none).ForwardLaw := h.congr rfl .rfl (State.readTagsFrom_setTag t none rfl (by simp))
    refine ⟨fun _ => hfreed, fun _ _ => ⟨fun _ _ _ _ => ⟨hfreed.same rfl rfl rfl, fun _ _ _ =>
      hfreed.core.same rfl rfl rfl⟩, fun _ _ _ => ⟨fun _ => hfreed.same rfl rfl rfl, fun _ => ?_⟩⟩⟩
    unfold State.afterCancel
    split <;> exact hfreed.core.same rfl rfl rfl
  cancels s which h := by
    obtain ⟨places, order, g, heq⟩ := s.cancelEntries_frame which
    rw [heq]
    exact h.core.same rfl rfl rfl
  fences s ps h _ := by
    obtain ⟨slots, heq⟩ := State.markSlots_frame s.busySlots { s with fence := ⟨.pending, some ps, false⟩ }
    rw [heq]
    exact h.same rfl rfl rfl
  reported _ h := h.same rfl rfl rfl

/-- Settles O13: a new head takes its step as the blocks settle, and the read head's tags are its granted lines. -/
theorem forwardLawKeptByEveryStep : Obligations.ForwardLawKeptByEveryStep := fun s t h ht =>
  forwardLaw_kept.step s t trivial h ht

end Sys2Proof.Machine
end

section
/-! SUPPORT. Every step keeps the combine store's law (R79 to R82, R90, R149). -/

namespace Sys2Proof.Machine

/-! ### What the law reads -/

/-- The tags of the slots other than those of which `except` holds are the same in both states. -/
def State.SlotTags (t s : State) (except : SlotIdx → Prop) : Prop :=
  ∀ g r k, ¬ except k → r.owner = .slot k → (t.tag g = some r ↔ s.tag g = some r)

theorem State.slotTags_of_tags {s t : State} (h : t.tags = s.tags) (except : SlotIdx → Prop) : t.SlotTags s except :=
  fun g _ _ _ _ => by rw [State.tag_congr t s h]

/-- A tag that is no slot's before and after. -/
theorem State.slotTags_setTag {s t : State} (g : Tag) (x : Option TagRecord) (h : t.tags = s.tags.set g x)
    (except : SlotIdx → Prop) (hx : ∀ r k, ¬ except k → x = some r → r.owner ≠ .slot k)
    (hs : ∀ r k, ¬ except k → s.tag g = some r → r.owner ≠ .slot k) : t.SlotTags s except := fun j r k hk ho => by
  rw [State.tag_congr t (s.setTag g x) h, State.tag_setTag]
  split
  · rename_i hgj
    subst hgj
    exact ⟨fun hr => absurd ho (hx r k hk hr), fun hr => absurd ho (hs r k hk hr)⟩
  · exact .rfl

/-- The touched-slot lists name OPEN slots, each once (R71). -/
def State.TouchedOpen (s : State) : Prop :=
  ∀ r ∈ s.intake, r.touched.Nodup ∧ ∀ k ∈ r.touched, (s.slot k).state = .opened

theorem State.SlotLaw.congr {s t : State} (h : s.SlotLaw) (hslots : t.slots = s.slots)
    (hopen : t.openOrder = s.openOrder) (hflush : t.flushOrder = s.flushOrder) (htouched : t.TouchedOpen)
    (htags : t.SlotTags s fun _ => False) : t.SlotLaw := by
  have hslot : ∀ k, t.slot k = s.slot k := State.slot_congr t s hslots
  exact {
    openOnce := by rw [hopen]; exact h.openOnce
    openList := fun k => by rw [hopen, hslot]; exact h.openList k
    flushOnce := by rw [hflush]; exact h.flushOnce
    flushList := fun k => by rw [hflush, hslot]; exact h.flushList k
    freeValues := fun k => by rw [hslot]; exact h.freeValues k
    openValues := fun k => by rw [hslot]; exact h.openValues k
    flushRequest := fun k => by rw [hslot]; exact h.flushRequest k
    oneHolder := fun j k => by rw [hslot, hslot]; exact h.oneHolder j k
    touched := htouched
    slotTag := fun k g hg => by
      rw [hslot] at hg ⊢
      exact (htags g _ k id rfl).mpr (h.slotTag k g hg)
    tagSlot := fun g r k hr ho => by
      rw [hslot]
      exact h.tagSlot g r k ((htags g r k id ho).mp hr) ho }

theorem State.SlotLaw.same {s t : State} (h : s.SlotLaw) (hslots : t.slots = s.slots)
    (hopen : t.openOrder = s.openOrder) (hflush : t.flushOrder = s.flushOrder) (hintake : t.intake = s.intake)
    (htags : t.SlotTags s fun _ => False) : t.SlotLaw :=
  h.congr hslots hopen hflush (fun r hr => by
    obtain ⟨honce, hopened⟩ := h.touched r (hintake ▸ hr)
    exact ⟨honce, fun k hk => by rw [State.slot_congr t s hslots]; exact hopened k hk⟩) htags

/-- What slot `k` must hold for the law, the others being as they are. -/
structure State.SlotFits (s t : State) (k : SlotIdx) (x : Slot) : Prop where
  openList : k ∈ t.openOrder ↔ x.state = .opened
  openOthers : ∀ j, j ≠ k → (j ∈ t.openOrder ↔ j ∈ s.openOrder)
  openOnce : t.openOrder.Nodup
  flushList : k ∈ t.flushOrder ↔ x.state.flushing
  flushOthers : ∀ j, j ≠ k → (j ∈ t.flushOrder ↔ j ∈ s.flushOrder)
  flushOnce : t.flushOrder.Nodup
  freeValues : x.state = .free → x = Slot.cleared
  openValues : x.state = .opened → x.reason = .none ∧ x.mask = 0#64 ∧ x.request = .none
  flushRequest : x.state.flushing → x.request ≠ .none
  oneHolder : x.state.holdsLine → ∀ j, j ≠ k → (s.slot j).state.holdsLine → (s.slot j).line ≠ x.line
  slotTag : ∀ g, x.request = .outstanding g → t.tag g = some ⟨.combine, x.state.requestKind, x.line, .slot k⟩
  tagSlot : ∀ g r, t.tag g = some r → r.owner = .slot k → x.request = .outstanding g ∧ r.kind = x.state.requestKind
  tags : t.SlotTags s (· = k)

/-- One slot changes. -/
theorem State.SlotLaw.withSlot {s t : State} (h : s.SlotLaw) (k : SlotIdx) (x : Slot)
    (hslots : t.slots = s.slots.set k x) (hx : s.SlotFits t k x) (htouched : t.TouchedOpen) : t.SlotLaw := by
  have hslot : ∀ j, t.slot j = if k = j then x else s.slot j := fun j => by
    rw [State.slot_congr t (s.setSlot k x) hslots, State.slot_setSlot]
  have hself : t.slot k = x := by rw [hslot, if_pos rfl]
  have hother : ∀ j, j ≠ k → t.slot j = s.slot j := fun j hj => by rw [hslot, if_neg (Ne.symm hj)]
  constructor
  case openOnce => exact hx.openOnce
  case flushOnce => exact hx.flushOnce
  case touched => exact htouched
  case openList =>
    intro j
    by_cases hj : j = k
    · rw [hj, hself]
      exact hx.openList
    · rw [hother j hj, hx.openOthers j hj]
      exact h.openList j
  case flushList =>
    intro j
    by_cases hj : j = k
    · rw [hj, hself]
      exact hx.flushList
    · rw [hother j hj, hx.flushOthers j hj]
      exact h.flushList j
  case freeValues =>
    intro j
    by_cases hj : j = k
    · rw [hj, hself]
      exact hx.freeValues
    · rw [hother j hj]
      exact h.freeValues j
  case openValues =>
    intro j
    by_cases hj : j = k
    · rw [hj, hself]
      exact hx.openValues
    · rw [hother j hj]
      exact h.openValues j
  case flushRequest =>
    intro j
    by_cases hj : j = k
    · rw [hj, hself]
      exact hx.flushRequest
    · rw [hother j hj]
      exact h.flushRequest j
  case oneHolder =>
    intro i j hij
    by_cases hi : i = k
    · subst hi
      rw [hself, hother j (Ne.symm hij)]
      exact fun hholds hj => (hx.oneHolder hholds j (Ne.symm hij) hj).symm
    · by_cases hj : j = k
      · subst hj
        rw [hself, hother i hi]
        exact fun hi' hholds => hx.oneHolder hholds i hi hi'
      · rw [hother i hi, hother j hj]
        exact h.oneHolder i j hij
  case slotTag =>
    intro j g
    by_cases hj : j = k
    · rw [hj, hself]
      exact hx.slotTag g
    · rw [hother j hj]
      exact fun hg => (hx.tags g _ j hj rfl).mpr (h.slotTag j g hg)
  case tagSlot =>
    intro g r j hr ho
    by_cases hj : j = k
    · rw [hj] at ho ⊢
      rw [hself]
      exact hx.tagSlot g r hr ho
    · rw [hother j hj]
      exact h.tagSlot g r j ((hx.tags g r j hj ho).mp hr) ho

/-! ### What a slot's state says of the lists -/

theorem SlotState.opened_not_flushing {st : SlotState} (h : st = .opened) : ¬ st.flushing := by
  rw [h]
  simp [SlotState.flushing]

theorem SlotState.flushing_ne_opened {st : SlotState} (h : st.flushing) : st ≠ .opened := fun ho =>
  SlotState.opened_not_flushing ho h

theorem State.SlotLaw.flushing_of_outstanding {s : State} (h : s.SlotLaw) (k : SlotIdx) (g : Tag)
    (hg : (s.slot k).request = .outstanding g) : (s.slot k).state.flushing := by
  cases hstate : (s.slot k).state with
  | free =>
    rw [h.freeValues k hstate] at hg
    cases hg
  | opened =>
    rw [(h.openValues k hstate).2.2] at hg
    cases hg
  | merging => exact .inl rfl
  | writing => exact .inr rfl

/-! ### Closing (R89) -/

theorem State.SlotLaw.closeSlot {s : State} (h : s.SlotLaw) (k : SlotIdx) (r : FlushReason) : (s.closeSlot k r).SlotLaw := by
  by_cases ho : (s.slot k).state = .opened
  · rw [s.closeSlot_opened k r ho]
    have hflushing := Slot.closed_flushing (s.slot k) r (s.fenceCatches k)
    have hopened := SlotState.flushing_ne_opened hflushing
    have hin : k ∉ s.flushOrder := fun hk => SlotState.opened_not_flushing ho ((h.flushList k).mp hk)
    have hrequest : (s.slot k).request = .none := (h.openValues k ho).2.2
    refine h.withSlot k _ rfl ?_ ?_
    · exact {
        openList := iff_of_false (fun hk => (h.openOnce.mem_erase_iff.mp hk).1 rfl) hopened
        openOthers := fun j hj => List.mem_erase_of_ne hj
        openOnce := h.openOnce.erase k
        flushList := iff_of_true (by simp) hflushing
        flushOthers := fun j hj => by simp [hj]
        flushOnce := List.nodup_append.mpr ⟨h.flushOnce, List.nodup_singleton k, fun j hj i hi hji =>
          hin (List.mem_singleton.mp hi ▸ hji ▸ hj)⟩
        freeValues := fun hfree => by
          rw [hfree] at hflushing
          rcases hflushing with hf | hf <;> cases hf
        openValues := fun hop => absurd hop hopened
        flushRequest := fun _ => by simp [Slot.closed]
        oneHolder := fun _ j hj hholds => h.oneHolder j k hj hholds (.inl ho)
        slotTag := fun g hg => by cases hg
        tagSlot := fun g r' hr ho' => by
          have := (h.tagSlot g r' k hr ho').1
          rw [hrequest] at this
          cases this
        tags := State.slotTags_of_tags rfl _ }
    · intro r' hr'
      obtain ⟨r', hr'', rfl⟩ := List.mem_map.mp hr'
      obtain ⟨honce, hopen⟩ := h.touched r' hr''
      refine ⟨honce.erase k, fun j hj => ?_⟩
      obtain ⟨hne, hj'⟩ := honce.mem_erase_iff.mp hj
      exact (State.slot_setSlot_of_ne s k j _ (Ne.symm hne)).symm ▸ hopen j hj'
  · rw [s.closeSlot_of_ne k r ho]
    exact h

theorem State.SlotLaw.closeFor {s : State} (h : s.SlotLaw) (causes : List Cause) : (s.closeFor causes).SlotLaw := by
  unfold State.closeFor
  generalize closings causes s.openOrder = l
  induction l generalizing s with
  | nil => exact h
  | cons c l ih => exact ih (h.closeSlot c.1 c.2)

theorem State.SlotLaw.settle {s : State} (h : s.SlotLaw) (causes : List Cause) : (s.settle causes).SlotLaw := by
  obtain ⟨_, _, _, _, _, _, _, _, _, htags, -⟩ := s.settle_keeps causes
  obtain ⟨hslots, hopen, hflush, hintake, -⟩ := s.settle_fields causes
  obtain ⟨_, _, _, _, hclosed⟩ := s.closeFor_frame (s.endCauses causes)
  refine (h.closeFor (s.endCauses causes)).same hslots hopen hflush hintake (State.slotTags_of_tags ?_ _)
  rw [htags, hclosed]

/-! ### Marking (R96, R98) -/

theorem State.SlotLaw.markSlots {s : State} (h : s.SlotLaw) (l : List SlotIdx)
    (hl : ∀ k ∈ l, (s.slot k).state ≠ .free) : (s.markSlots l).SlotLaw := by
  induction l generalizing s with
  | nil => exact h
  | cons k l ih =>
    have hk := hl k List.mem_cons_self
    have hstep : (s.setSlot k { s.slot k with mark := true }).SlotLaw := by
      refine h.withSlot k _ rfl ?_ ?_
      · exact {
          openList := h.openList k
          openOthers := fun _ _ => .rfl
          openOnce := h.openOnce
          flushList := h.flushList k
          flushOthers := fun _ _ => .rfl
          flushOnce := h.flushOnce
          freeValues := fun hfree => absurd hfree hk
          openValues := h.openValues k
          flushRequest := h.flushRequest k
          oneHolder := fun hholds j hj hj' => h.oneHolder j k hj hj' hholds
          slotTag := fun g hg => h.slotTag k g hg
          tagSlot := fun g r hr ho => h.tagSlot g r k hr ho
          tags := State.slotTags_of_tags rfl _ }
      · intro r hr
        obtain ⟨honce, hopen⟩ := h.touched r hr
        refine ⟨honce, fun j hj => ?_⟩
        rw [State.slot_setSlot]
        split
        · rename_i hkj
          subst hkj
          exact hopen k hj
        · exact hopen j hj
    refine ih hstep fun j hj => ?_
    rw [State.slot_setSlot]
    split
    · exact hk
    · exact hl j (List.mem_cons_of_mem _ hj)

/-! ### Placing (R66 to R71) -/

/-- A placement into an OPEN slot leaves it OPEN and puts it on the record's touched-slot list. -/
theorem State.SlotLaw.placed {s : State} (h : s.SlotLaw) (r : IntakeRecord) (rest : List IntakeRecord) (k : SlotIdx)
    (p : Placement) (hi : s.intake = r :: rest) (ho : (s.slot k).state = .opened) :
    State.SlotLaw { s.setSlot k ((s.slot k).placed p) with intake := r.touch k :: rest } := by
  refine h.withSlot k _ rfl ?_ ?_
  · exact {
      openList := h.openList k
      openOthers := fun _ _ => .rfl
      openOnce := h.openOnce
      flushList := h.flushList k
      flushOthers := fun _ _ => .rfl
      flushOnce := h.flushOnce
      freeValues := fun hfree => by
        rw [show ((s.slot k).placed p).state = (s.slot k).state from rfl, ho] at hfree
        cases hfree
      openValues := h.openValues k
      flushRequest := h.flushRequest k
      oneHolder := fun hholds j hj hj' => h.oneHolder j k hj hj' hholds
      slotTag := fun g hg => h.slotTag k g hg
      tagSlot := fun g r hr ho => h.tagSlot g r k hr ho
      tags := State.slotTags_of_tags rfl _ }
  · have hstate : ∀ j, (s.slot j).state = .opened → ((s.setSlot k ((s.slot k).placed p)).slot j).state = .opened :=
      fun j hj => by
        rw [State.slot_setSlot]
        split
        · exact ho
        · exact hj
    intro r' hr'
    rcases List.mem_cons.mp hr' with rfl | hr'
    · obtain ⟨honce, hopen⟩ := h.touched r (by rw [hi]; exact List.mem_cons_self)
      unfold IntakeRecord.touch
      split
      · exact ⟨honce, fun j hj => hstate j (hopen j hj)⟩
      · rename_i hk
        have hnot : k ∉ r.touched := by simpa using hk
        refine ⟨List.nodup_append.mpr ⟨honce, List.nodup_singleton k, fun j hj i hi hji =>
          hnot (List.mem_singleton.mp hi ▸ hji ▸ hj)⟩, fun j hj => hstate j ?_⟩
        rcases List.mem_append.mp hj with hj | hj
        · exact hopen j hj
        · exact List.mem_singleton.mp hj ▸ ho
    · obtain ⟨honce, hopen⟩ := h.touched r' (by rw [hi]; exact List.mem_cons_of_mem _ hr')
      exact ⟨honce, fun j hj => hstate j (hopen j hj)⟩

/-- The records that stay keep their touched-slot lists when one leaves (R63). -/
theorem State.recordLeaves_touched (s : State) (r : IntakeRecord) (rest : List IntakeRecord) :
    ∃ records engine, (s.recordLeaves r rest).1 = State.markSlots { s with intake := records, scatter := engine }
      (if s.fence.waitsFor r then r.touched else []) ∧ ∀ r' ∈ records, ∃ r'' ∈ rest, r'.touched = r''.touched := by
  cases rest with
  | nil => exact ⟨[], ⟨.idle, none⟩, s.recordLeaves_nil r, by simp⟩
  | cons n more =>
    refine ⟨_, _, s.recordLeaves_cons r n more, fun r' hr' => ?_⟩
    rcases List.mem_cons.mp hr' with rfl | hr'
    · exact ⟨n, List.mem_cons_self, rfl⟩
    · exact ⟨r', List.mem_cons_of_mem _ hr', rfl⟩

theorem State.SlotLaw.placeInto {s : State} (h : s.SlotLaw) (r : IntakeRecord) (rest : List IntakeRecord) (c : Cursor)
    (k : SlotIdx) (hi : s.intake = r :: rest) (ho : (s.slot k).state = .opened) :
    (s.placeInto r rest c k).state.SlotLaw := by
  have hplaced := h.placed r rest k (placementAt (s.aperture r.aperture).fields r c) hi ho
  unfold State.placeInto
  dsimp only
  split
  · exact hplaced.same rfl rfl rfl rfl (State.slotTags_of_tags rfl _)
  · obtain ⟨records, engine, heq, hrecords⟩ := State.recordLeaves_touched
      (s.setSlot k ((s.slot k).placed (placementAt (s.aperture r.aperture).fields r c))) (r.touch k) rest
    obtain ⟨-, htouched⟩ := hplaced.touched (r.touch k) List.mem_cons_self
    rw [heq]
    have hleft : State.SlotLaw { s.setSlot k ((s.slot k).placed (placementAt (s.aperture r.aperture).fields r c)) with
        intake := records, scatter := engine } := hplaced.congr rfl rfl rfl (fun r' hr' => by
      obtain ⟨r'', hr'', hsame⟩ := hrecords r' hr'
      rw [hsame]
      exact hplaced.touched r'' (List.mem_cons_of_mem _ hr'')) (State.slotTags_of_tags rfl _)
    refine hleft.markSlots _ fun j hj hfree => ?_
    split at hj
    · have hopened := (htouched j hj).symm.trans hfree
      cases hopened
    · cases hj

/-- A FREE slot opened for a line that no OPEN or MERGING slot holds (R69, R82). -/
theorem State.SlotLaw.openSlot {s : State} (h : s.SlotLaw) (k : SlotIdx) (line : Addr) (i : ApertureIdx)
    (hfree : (s.slot k).state = .free) (hopened : s.slotWith .opened line = none)
    (hmerging : s.slotWith .merging line = none) : (s.openSlot k line i).SlotLaw := by
  have hout : k ∉ s.openOrder := fun hk => by
    have := (h.openList k).mp hk
    rw [hfree] at this
    cases this
  have hflush : k ∉ s.flushOrder := fun hk => by
    have := (h.flushList k).mp hk
    rw [hfree] at this
    rcases this with hf | hf <;> cases hf
  refine h.withSlot k { Slot.cleared with state := .opened, line := line, aperture := i, openTime := s.now } rfl ?_ ?_
  · exact {
      openList := iff_of_true (by simp [State.openSlot]) rfl
      openOthers := fun j hj => by simp [State.openSlot, hj]
      openOnce := List.nodup_append.mpr ⟨h.openOnce, List.nodup_singleton k, fun j hj i hi hji =>
        hout (List.mem_singleton.mp hi ▸ hji ▸ hj)⟩
      flushList := iff_of_false hflush (SlotState.opened_not_flushing rfl)
      flushOthers := fun _ _ => .rfl
      flushOnce := h.flushOnce
      freeValues := fun hf => by cases hf
      openValues := fun _ => ⟨rfl, rfl, rfl⟩
      flushRequest := fun hf => absurd hf (SlotState.opened_not_flushing rfl)
      oneHolder := fun _ j _ hj => by
        rcases hj with hj | hj
        · exact (s.slotWith_eq_none .opened line).mp hopened j hj
        · exact (s.slotWith_eq_none .merging line).mp hmerging j hj
      slotTag := fun g hg => by cases hg
      tagSlot := fun g r hr ho => by
        have := (h.tagSlot g r k hr ho).1
        rw [h.freeValues k hfree] at this
        cases this
      tags := State.slotTags_of_tags rfl _ }
  · intro r hr
    obtain ⟨honce, hopen⟩ := h.touched r hr
    refine ⟨honce, fun j hj => ?_⟩
    have hne : k ≠ j := fun hkj => by
      have := hopen j hj
      rw [← hkj, hfree] at this
      cases this
    exact (State.slot_setSlot_of_ne s k j _ hne).symm ▸ hopen j hj

theorem State.SlotLaw.scatterStep {s : State} (h : s.SlotLaw) : s.scatterStep.state.SlotLaw := by
  have waits : ∀ engine, State.SlotLaw { s with scatter := engine } := fun _ =>
    h.same rfl rfl rfl rfl (State.slotTags_of_tags rfl _)
  unfold State.scatterStep
  split
  · rename_i r rest c hi _
    dsimp only
    split
    · rename_i k hk
      exact h.placeInto r rest c k hi (s.slotWith_eq_some _ _ k hk).1
    · rename_i hopened
      split
      · exact waits _
      · rename_i hmerging
        split
        · rename_i k hk
          exact (h.openSlot k _ _ ((s.firstFreeSlot_eq_some k).mp hk).1 hopened hmerging).placeInto r rest c k hi
            (by simp [State.openSlot, State.slot])
        · exact waits _
  · exact h

/-! ### Requests and completions (R90 to R93) -/

/-- A flushing slot stays flushing: its record changes, the lists do not. -/
theorem State.SlotLaw.withFlushing {s t : State} (h : s.SlotLaw) (k : SlotIdx) (x : Slot)
    (hflushing : (s.slot k).state.flushing) (hslots : t.slots = s.slots.set k x) (hopen : t.openOrder = s.openOrder)
    (hflush : t.flushOrder = s.flushOrder) (hintake : t.intake = s.intake) (hx : x.state.flushing)
    (hrequest : x.request ≠ .none) (hholds : x.state.holdsLine → (s.slot k).state.holdsLine ∧ x.line = (s.slot k).line)
    (hslotTag : ∀ g, x.request = .outstanding g →
      t.tag g = some ⟨.combine, x.state.requestKind, x.line, .slot k⟩)
    (htagSlot : ∀ g r, t.tag g = some r → r.owner = .slot k →
      x.request = .outstanding g ∧ r.kind = x.state.requestKind) (htags : t.SlotTags s (· = k)) : t.SlotLaw := by
  refine h.withSlot k x hslots ?_ ?_
  · exact {
      openList := by
        rw [hopen, h.openList]
        exact iff_of_false (SlotState.flushing_ne_opened hflushing) (SlotState.flushing_ne_opened hx)
      openOthers := fun _ _ => by rw [hopen]
      openOnce := by rw [hopen]; exact h.openOnce
      flushList := by rw [hflush, h.flushList]; exact iff_of_true hflushing hx
      flushOthers := fun _ _ => by rw [hflush]
      flushOnce := by rw [hflush]; exact h.flushOnce
      freeValues := fun hfree => by
        rw [hfree] at hx
        rcases hx with hf | hf <;> cases hf
      openValues := fun hop => absurd hop (SlotState.flushing_ne_opened hx)
      flushRequest := fun _ => hrequest
      oneHolder := fun hx' j hj hj' => by
        obtain ⟨hk, hline⟩ := hholds hx'
        rw [hline]
        exact h.oneHolder j k hj hj' hk
      slotTag := hslotTag
      tagSlot := htagSlot
      tags := htags }
  · intro r hr
    obtain ⟨honce, hopened⟩ := h.touched r (hintake ▸ hr)
    refine ⟨honce, fun j hj => ?_⟩
    have hne : k ≠ j := fun hkj => SlotState.flushing_ne_opened hflushing (hkj ▸ hopened j hj)
    rw [State.slot_congr t (s.setSlot k x) hslots, State.slot_setSlot_of_ne s k j x hne]
    exact hopened j hj

/-- What COMBINE offers is a flushing slot whose request is ready (R90). -/
theorem State.combineOffer_eq_some (s : State) (k : SlotIdx) (h : s.combineOffer = some k) :
    k ∈ s.flushOrder ∧ (s.slot k).request = .ready := by
  have hready := List.find?_some h
  exact ⟨List.mem_of_find?_eq_some h, by simpa using hready⟩

/-- A slot's request goes out (R90): the slot holds the tag, and the tag table the slot. -/
theorem State.issueCombine_eq (s : State) (g : Tag) (k : SlotIdx) : ∃ o, s.issueCombine g k =
    ((s.setSlot k { s.slot k with request := .outstanding g }).setTag g
      (some ⟨.combine, (s.slot k).state.requestKind, (s.slot k).line, .slot k⟩)).emit o := by
  unfold State.issueCombine SlotState.requestKind
  dsimp only
  split
  · exact ⟨_, rfl⟩
  · exact ⟨_, rfl⟩

theorem State.SlotLaw.issueCombine {s : State} (h : s.SlotLaw) (g : Tag) (k : SlotIdx) (hfree : s.tag g = none)
    (ho : s.combineOffer = some k) : (s.issueCombine g k).SlotLaw := by
  obtain ⟨hk, hready⟩ := s.combineOffer_eq_some k ho
  have hflushing := (h.flushList k).mp hk
  obtain ⟨o, heq⟩ := s.issueCombine_eq g k
  rw [heq]
  have htag : ∀ j, ((((s.setSlot k { s.slot k with request := .outstanding g }).setTag g
      (some ⟨.combine, (s.slot k).state.requestKind, (s.slot k).line, .slot k⟩)).emit o)).tag j =
      if g = j then some ⟨.combine, (s.slot k).state.requestKind, (s.slot k).line, .slot k⟩ else s.tag j := fun j => by
    rw [State.emit_tag, State.tag_setTag, State.setSlot_tag]
  refine h.withFlushing k { s.slot k with request := .outstanding g } hflushing rfl rfl rfl rfl hflushing (by simp)
    (fun hx => ⟨hx, rfl⟩) ?_ ?_ ?_
  · intro j hj
    cases hj
    rw [htag, if_pos rfl]
  · intro j r hr hslot
    rw [htag] at hr
    split at hr
    · rename_i hgj
      cases hr
      exact ⟨by rw [hgj], rfl⟩
    · have := (h.tagSlot j r k hr hslot).1
      rw [hready] at this
      cases this
  · intro j r i hi hslot
    rw [htag]
    split
    · rename_i hgj
      subst hgj
      rw [hfree]
      refine iff_of_false (fun hr => ?_) (by simp)
      cases hr
      exact hi (Owner.slot.inj hslot).symm
    · exact .rfl

/-- The request of a slot is outstanding under its one tag (R149). -/
theorem State.SlotLaw.tag_unique {s : State} (h : s.SlotLaw) (g j : Tag) (r r' : TagRecord) (k : SlotIdx)
    (hr : s.tag g = some r) (ho : r.owner = .slot k) (hr' : s.tag j = some r') (ho' : r'.owner = .slot k) : j = g := by
  have hg := (h.tagSlot g r k hr ho).1
  rw [(h.tagSlot j r' k hr' ho').1] at hg
  exact SlotRequest.outstanding.inj hg

/-- Once its tag is FREE, a slot has none. -/
theorem State.SlotLaw.no_tag_left {s : State} (h : s.SlotLaw) (g : Tag) (rec : TagRecord) (k : SlotIdx)
    (hrec : s.tag g = some rec) (ho : rec.owner = .slot k) (j : Tag) (r : TagRecord)
    (hr : (s.setTag g none).tag j = some r) (hr' : r.owner = .slot k) : False := by
  rw [State.tag_setTag] at hr
  split at hr
  · cases hr
  · rename_i hne
    exact hne (h.tag_unique g j rec r k hrec ho hr hr').symm

theorem State.slotTags_freed {s t : State} (g : Tag) (rec : TagRecord) (k : SlotIdx) (hrec : s.tag g = some rec)
    (ho : rec.owner = .slot k) (htags : t.tags = s.tags.set g none) : t.SlotTags s (· = k) :=
  State.slotTags_setTag g none htags _ (by simp) fun r j hj hr hslot => by
    rw [hrec] at hr
    cases hr
    rw [ho] at hslot
    exact hj (Owner.slot.inj hslot).symm

theorem State.SlotLaw.slotFreed {s : State} (h : s.SlotLaw) (g : Tag) (rec : TagRecord) (k : SlotIdx)
    (hrec : s.tag g = some rec) (ho : rec.owner = .slot k) : ((s.setTag g none).freeSlot k).SlotLaw := by
  have hflushing := h.flushing_of_outstanding k g (h.tagSlot g rec k hrec ho).1
  refine h.withSlot k Slot.cleared rfl ?_ ?_
  · exact {
      openList := iff_of_false (fun hk => SlotState.flushing_ne_opened hflushing ((h.openList k).mp hk)) (by
        simp [Slot.cleared])
      openOthers := fun _ _ => .rfl
      openOnce := h.openOnce
      flushList := iff_of_false (fun hk => (h.flushOnce.mem_erase_iff.mp hk).1 rfl) (by
        simp [Slot.cleared, SlotState.flushing])
      flushOthers := fun j hj => List.mem_erase_of_ne hj
      flushOnce := h.flushOnce.erase k
      freeValues := fun _ => rfl
      openValues := fun hop => by cases hop
      flushRequest := fun hf => by rcases hf with hf | hf <;> cases hf
      oneHolder := fun hholds => by rcases hholds with hf | hf <;> cases hf
      slotTag := fun g hg => by cases hg
      tagSlot := fun j r hr ho' => (h.no_tag_left g rec k hrec ho j r hr ho').elim
      tags := State.slotTags_freed g rec k hrec ho rfl }
  · intro r hr
    obtain ⟨honce, hopened⟩ := h.touched r hr
    refine ⟨honce, fun j hj => ?_⟩
    have hne : k ≠ j := fun hkj => SlotState.flushing_ne_opened hflushing (hkj ▸ hopened j hj)
    rw [State.freeSlot_slot_ne _ k j hne]
    exact hopened j hj

/-- A slot's merge read has come back, and its line write is ready (R91, R92). -/
theorem State.SlotLaw.slotWrites {s : State} (h : s.SlotLaw) (g : Tag) (rec : TagRecord) (k : SlotIdx) (x : Slot)
    (hrec : s.tag g = some rec) (ho : rec.owner = .slot k) (hstate : x.state = .writing) (hrequest : x.request = .ready) :
    ((s.setTag g none).setSlot k x).SlotLaw :=
  h.withFlushing k x (h.flushing_of_outstanding k g (h.tagSlot g rec k hrec ho).1) rfl rfl rfl rfl (.inr hstate)
    (by simp [hrequest]) (fun hx => by rcases hx with hx | hx <;> (rw [hstate] at hx; cases hx))
    (fun j hj => by
      rw [hrequest] at hj
      cases hj) (fun j r hr ho' => (h.no_tag_left g rec k hrec ho j r hr ho').elim)
    (State.slotTags_freed g rec k hrec ho rfl)

/-- A tag that is not a slot's is freed. -/
theorem State.SlotLaw.tagFreed {s t : State} (h : s.SlotLaw) (g : Tag) (rec : TagRecord) (hrec : s.tag g = some rec)
    (ho : ∀ k, rec.owner ≠ .slot k) (hslots : t.slots = s.slots) (hopen : t.openOrder = s.openOrder)
    (hflush : t.flushOrder = s.flushOrder) (hintake : t.intake = s.intake) (htags : t.tags = s.tags.set g none) :
    t.SlotLaw :=
  h.same hslots hopen hflush hintake (State.slotTags_setTag g none htags _ (by simp) fun r k _ hr => by
    rw [hrec] at hr
    cases hr
    exact ho k)

/-- A FREE tag is taken for another source. -/
theorem State.SlotLaw.tagTaken {s t : State} (h : s.SlotLaw) (g : Tag) (x : TagRecord) (hfree : s.tag g = none)
    (hx : ∀ k, x.owner ≠ .slot k) (hslots : t.slots = s.slots) (hopen : t.openOrder = s.openOrder)
    (hflush : t.flushOrder = s.flushOrder) (hintake : t.intake = s.intake) (htags : t.tags = s.tags.set g (some x)) :
    t.SlotLaw :=
  h.same hslots hopen hflush hintake (State.slotTags_setTag g (some x) htags _ (fun r k _ hr => by
    cases hr
    exact hx k) fun r _ _ hr => by
      rw [hfree] at hr
      cases hr)

/-- The law of the combine store is one that every block's operation keeps. -/
theorem slotLaw_kept : BlockKept (fun _ => True) State.SlotLaw State.SlotLaw where
  same _ _ h hst := h.same hst.slots hst.openOrder hst.flushOrder hst.intake (State.slotTags_of_tags hst.tags _)
  sameQ _ _ h hst := h.same hst.slots hst.openOrder hst.flushOrder hst.intake (State.slotTags_of_tags hst.tags _)
  sameA _ _ _ _ := trivial
  loose _ h := h
  powerOn _ := resetStateKeepsEveryLaw.slots.same rfl rfl rfl rfl (State.slotTags_of_tags rfl _)
  settle _ causes h := h.settle causes
  closeFor _ causes h := h.closeFor causes
  stale _ _ h := h.same rfl rfl rfl rfl (State.slotTags_of_tags rfl _)
  staleQ _ _ h := h.same rfl rfl rfl rfl (State.slotTags_of_tags rfl _)
  scatters _ h := h.scatterStep
  accepts s r i h _ _ := h.congr rfl rfl rfl (fun r' hr' => by
    rcases List.mem_append.mp hr' with hr' | hr'
    · exact h.touched r' hr'
    · obtain rfl := List.mem_singleton.mp hr'
      exact ⟨List.nodup_nil, by simp [State.newRecord]⟩) (State.slotTags_of_tags rfl _)
  frees _ _ _ h _ _ := h.same rfl rfl rfl rfl (State.slotTags_of_tags rfl _)
  requeues _ _ _ _ h _ _ := h.same rfl rfl rfl rfl (State.slotTags_of_tags rfl _)
  creates _ _ _ _ _ h _ _ := h.same rfl rfl rfl rfl (State.slotTags_of_tags rfl _)
  immediates s _ _ h _ _ := by
    unfold State.takeImmediate
    split <;> exact h.same rfl rfl rfl rfl (State.slotTags_of_tags rfl _)
  appendsWrite _ _ _ h _ _ _ := h.same rfl rfl rfl rfl (State.slotTags_of_tags rfl _)
  appendsRead _ _ _ h _ _ _ := h.same rfl rfl rfl rfl (State.slotTags_of_tags rfl _)
  issuesRead _ g _ _ _ h hg _ _ _ _ := h.tagTaken g _ hg (by simp) rfl rfl rfl rfl rfl
  issuesWrite _ g _ _ _ h hg _ _ _ _ :=
    ⟨h.tagTaken g _ hg (by simp) rfl rfl rfl rfl rfl, h.tagTaken g _ hg (by simp) rfl rfl rfl rfl rfl⟩
  issuesCombine _ g k h hg ho := h.issueCombine g k hg ho
  issuesGather s g _ h hg _ := by
    unfold State.issueGather
    split
    · exact h.tagTaken g _ hg (by simp) rfl rfl rfl rfl rfl
    · exact h.tagTaken g _ hg (by simp) rfl rfl rfl rfl rfl
    all_goals exact h
  headCompletes _ t rec _ _ h hrec ho _ := by
    have hfreed := fun (f : List ForwardEntry) (p : PortState) =>
      h.tagFreed (t := { State.setTag _ t none with forward := f, port := p }) t rec hrec (by simp [ho]) rfl rfl rfl rfl rfl
    exact ⟨fun _ => hfreed _ _, fun _ _ _ => ⟨hfreed _ _, fun _ => hfreed _ _⟩⟩
  writeCompletes _ t rec h hrec ho := h.tagFreed t rec hrec (by simp [ho]) rfl rfl rfl rfl rfl
  slotFreed _ t rec k h hrec ho := h.slotFreed t rec k hrec ho
  slotMerged _ t rec k _ h hrec ho _ := h.slotWrites t rec k _ hrec ho rfl rfl
  slotReduced _ t rec k h hrec ho _ := h.slotWrites t rec k _ hrec ho rfl rfl
  notes s x h := by
    obtain ⟨f, heq⟩ := s.noteFault_frame x
    rw [heq]
    exact h.same rfl rfl rfl rfl (State.slotTags_of_tags rfl _)
  immediateCompletes s t rec _ h hrec ho := by
    have hfreed := fun (g : Gather) (p : PortState) =>
      h.tagFreed (t := { s.setTag t none with gather := g, port := p }) t rec hrec (by simp [ho]) rfl rfl rfl rfl rfl
    exact ⟨fun _ => hfreed _ _, fun _ _ _ _ => ⟨fun _ => hfreed _ _, fun _ => hfreed _ _⟩⟩
  entryCompletes s t rec _ p h hrec ho := by
    have hfreed : (s.setTag t none).SlotLaw := h.tagFreed t rec hrec (by simp [ho]) rfl rfl rfl rfl rfl
    have htable : ∀ {u : State}, u.slots = s.slots → u.openOrder = s.openOrder → u.flushOrder = s.flushOrder →
        u.intake = s.intake → u.tags = s.tags.set t none → u.SlotLaw := fun h1 h2 h3 h4 h5 =>
      hfreed.same h1 h2 h3 h4 (State.slotTags_of_tags h5 _)
    refine ⟨fun _ => hfreed, fun _ _ => ⟨fun _ _ _ _ => ⟨htable rfl rfl rfl rfl rfl, fun _ _ _ =>
      htable rfl rfl rfl rfl rfl⟩, fun _ _ _ => ⟨fun _ => htable rfl rfl rfl rfl rfl, fun _ => ?_⟩⟩⟩
    unfold State.afterCancel
    split <;> exact htable rfl rfl rfl rfl rfl
  cancels s which h := by
    obtain ⟨places, order, g, heq⟩ := s.cancelEntries_frame which
    rw [heq]
    exact h.same rfl rfl rfl rfl (State.slotTags_of_tags rfl _)
  fences s ps h _ := by
    have hpending : State.SlotLaw { s with fence := ⟨.pending, some ps, false⟩ } :=
      h.same rfl rfl rfl rfl (State.slotTags_of_tags rfl _)
    refine hpending.markSlots s.busySlots fun k hk hfree => ?_
    have hbusy : (s.slot k).state ≠ .free := by simpa using (List.mem_filter.mp hk).2
    exact hbusy hfree
  reported _ h := h.same rfl rfl rfl rfl (State.slotTags_of_tags rfl _)

/-- Settles O10: the slots change one at a time, and each change keeps the lists, the same-line law and the tags. -/
theorem slotLawKeptByEveryStep : Obligations.SlotLawKeptByEveryStep := fun s t h ht =>
  slotLaw_kept.step s t trivial h ht

end Sys2Proof.Machine
end

section
/-! SUPPORT. Every step keeps the law of the deferred read table and the gather engine (R106 to R118). The law is taken
apart: the table's part reads the entries, the queued order and whom the engine serves; the engine's part reads the
engine, the port and the tags. -/

namespace Sys2Proof.Machine

/-! ### Whom the gather engine serves -/

/-- The engine reads lines for the entry in place `p` (R120). -/
def Gather.reads (g : Gather) (p : PlaceIdx) : Prop := ∃ job, g = .reading p job

/-- The engine waits for the reads of the CANCELLED entry in place `p` (R129). -/
def Gather.cancels (g : Gather) (p : PlaceIdx) : Prop := ∃ job, g = .cancelWait p job

/-- The engine serves an immediate read (R115). -/
def Gather.servesPort (g : Gather) : Prop := ∃ job buffer, g = .immediate job buffer

theorem Gather.gathers_iff_eq {g : Gather} {p : PlaceIdx} (h : g.gathers p) (q : PlaceIdx) : g.gathers q ↔ q = p := by
  rcases h with rfl | ⟨sn, rfl⟩ | ⟨job, rfl⟩ <;> simp [Gather.gathers, eq_comm]

theorem Gather.not_cancels_of_gathers {g : Gather} {p : PlaceIdx} (h : g.gathers p) (q : PlaceIdx) : ¬ g.cancels q := by
  rcases h with rfl | ⟨sn, rfl⟩ | ⟨job, rfl⟩ <;> simp [Gather.cancels]

theorem Gather.not_servesPort_of_gathers {g : Gather} {p : PlaceIdx} (h : g.gathers p) : ¬ g.servesPort := by
  rcases h with rfl | ⟨sn, rfl⟩ | ⟨job, rfl⟩ <;> simp [Gather.servesPort]

/-- Two engines serve the same one in the same way. -/
structure Gather.SameMode (g g' : Gather) : Prop where
  gathers : ∀ p, g'.gathers p ↔ g.gathers p
  reads : ∀ p, g'.reads p ↔ g.reads p
  cancels : ∀ p, g'.cancels p ↔ g.cancels p
  servesPort : g'.servesPort ↔ g.servesPort

theorem Gather.SameMode.refl (g : Gather) : g.SameMode g := ⟨fun _ => .rfl, fun _ => .rfl, fun _ => .rfl, .rfl⟩

theorem Gather.sameMode_reading (p : PlaceIdx) (job job' : ReadJob) :
    Gather.SameMode (.reading p job) (.reading p job') := by
  constructor <;> simp [Gather.gathers, Gather.reads, Gather.cancels, Gather.servesPort]

theorem Gather.sameMode_cancelWait (p : PlaceIdx) (job job' : ReadJob) :
    Gather.SameMode (.cancelWait p job) (.cancelWait p job') := by
  constructor <;> simp [Gather.gathers, Gather.reads, Gather.cancels, Gather.servesPort]

theorem Gather.sameMode_immediate (job job' : ReadJob) (buf buf' : ReadBuffer) :
    Gather.SameMode (.immediate job buf) (.immediate job' buf') := by
  constructor <;> simp [Gather.gathers, Gather.reads, Gather.cancels, Gather.servesPort]

/-- A slot leaves the snapshot, if the engine has one (R119). -/
theorem Gather.sameMode_dropSlot (g : Gather) (k : SlotIdx) : g.SameMode (g.dropSlot k) := by
  cases g with
  | slotWait p snapshot =>
    constructor <;> simp [Gather.dropSlot, Gather.gathers, Gather.reads, Gather.cancels, Gather.servesPort]
  | _ => exact Gather.SameMode.refl _

theorem Gather.outstanding_dropSlot (g : Gather) (k : SlotIdx) : (g.dropSlot k).outstanding = g.outstanding := by
  cases g <;> rfl

/-! ### The table's part -/

/-- What the law says of the table, the queued order and whom the engine serves (R106 to R109, R117). -/
structure State.TablePart (s : State) : Prop where
  keys : ∀ p q e d, s.place p = some e → s.place q = some d → e.state ≠ .cancelled → d.state ≠ .cancelled →
    e.requester = d.requester → e.address = d.address → e.beats = d.beats → p = q
  queuedOnce : s.queuedOrder.Nodup
  queuedList : ∀ p, p ∈ s.queuedOrder ↔ s.entryIn p .queued
  gathering : ∀ p, s.entryIn p .gathering ↔ s.gather.gathers p
  cancelled : ∀ p, s.entryIn p .cancelled ↔ s.gather.cancels p
  expiry : ∀ p e, s.place p = some e → (e.expiry.isSome = true ↔ e.state = .ready ∨ e.state = .failed)

/-- What the table's part reads of an entry. -/
def Entry.keyed (e : Entry) : Requester × Addr × Nat × EntryState × Bool :=
  (e.requester, e.address, e.beats, e.state, e.expiry.isSome)

theorem Entry.keyed_eq_iff (e d : Entry) : e.keyed = d.keyed ↔ e.requester = d.requester ∧ e.address = d.address ∧
    e.beats = d.beats ∧ e.state = d.state ∧ e.expiry.isSome = d.expiry.isSome := by
  simp [Entry.keyed]

theorem State.entryIn_congr {s t : State} (p : PlaceIdx) (h : (t.place p).map Entry.keyed = (s.place p).map Entry.keyed)
    (st : EntryState) : t.entryIn p st ↔ s.entryIn p st := by
  unfold State.entryIn
  cases hs : s.place p with
  | none =>
    rw [hs, Option.map_none, Option.map_eq_none_iff] at h
    rw [h]
  | some e =>
    rw [hs, Option.map_some, Option.map_eq_some_iff] at h
    obtain ⟨d, hd, hkeyed⟩ := h
    obtain ⟨-, -, -, hstate, -⟩ := (Entry.keyed_eq_iff d e).mp hkeyed
    simp [hd, hstate]

theorem State.TablePart.congr {s t : State} (h : s.TablePart)
    (hplaces : ∀ p, (t.place p).map Entry.keyed = (s.place p).map Entry.keyed) (hqueue : t.queuedOrder = s.queuedOrder)
    (hgathers : ∀ p, t.gather.gathers p ↔ s.gather.gathers p)
    (hcancels : ∀ p, t.gather.cancels p ↔ s.gather.cancels p) : t.TablePart := by
  have from_s : ∀ p e, t.place p = some e → ∃ e', s.place p = some e' ∧ e.keyed = e'.keyed := fun p e he => by
    have hp := hplaces p
    rw [he, Option.map_some, eq_comm, Option.map_eq_some_iff] at hp
    obtain ⟨e', he', hkeyed⟩ := hp
    exact ⟨e', he', hkeyed.symm⟩
  constructor
  case queuedOnce => rw [hqueue]; exact h.queuedOnce
  case queuedList => exact fun p => by rw [hqueue, State.entryIn_congr p (hplaces p)]; exact h.queuedList p
  case gathering => exact fun p => by rw [hgathers, State.entryIn_congr p (hplaces p)]; exact h.gathering p
  case cancelled => exact fun p => by rw [hcancels, State.entryIn_congr p (hplaces p)]; exact h.cancelled p
  case expiry =>
    intro p e he
    obtain ⟨e', he', hkeyed⟩ := from_s p e he
    obtain ⟨-, -, -, hstate, hexpiry⟩ := (Entry.keyed_eq_iff e e').mp hkeyed
    rw [hstate, hexpiry]
    exact h.expiry p e' he'
  case keys =>
    intro p q e d he hd
    obtain ⟨e', he', hkeyed⟩ := from_s p e he
    obtain ⟨d', hd', hkeyed'⟩ := from_s q d hd
    obtain ⟨h1, h2, h3, h4, -⟩ := (Entry.keyed_eq_iff e e').mp hkeyed
    obtain ⟨h1', h2', h3', h4', -⟩ := (Entry.keyed_eq_iff d d').mp hkeyed'
    rw [h1, h2, h3, h4, h1', h2', h3', h4']
    exact h.keys p q e' d' he' hd'

/-- What place `p` must hold for the table's part, the others being as they are. -/
structure State.PlaceFits (s t : State) (p : PlaceIdx) (x : Option Entry) : Prop where
  keys : ∀ e, x = some e → e.state ≠ .cancelled → ∀ q d, q ≠ p → s.place q = some d → d.state ≠ .cancelled →
    e.requester = d.requester → e.address = d.address → e.beats ≠ d.beats
  queuedOnce : t.queuedOrder.Nodup
  queuedSelf : p ∈ t.queuedOrder ↔ ∃ e, x = some e ∧ e.state = .queued
  queuedOthers : ∀ q, q ≠ p → (q ∈ t.queuedOrder ↔ q ∈ s.queuedOrder)
  gathersSelf : (∃ e, x = some e ∧ e.state = .gathering) ↔ t.gather.gathers p
  gathersOthers : ∀ q, q ≠ p → (t.gather.gathers q ↔ s.gather.gathers q)
  cancelsSelf : (∃ e, x = some e ∧ e.state = .cancelled) ↔ t.gather.cancels p
  cancelsOthers : ∀ q, q ≠ p → (t.gather.cancels q ↔ s.gather.cancels q)
  expiry : ∀ e, x = some e → (e.expiry.isSome = true ↔ e.state = .ready ∨ e.state = .failed)

/-- One place changes. -/
theorem State.TablePart.withPlace {s t : State} (h : s.TablePart) (p : PlaceIdx) (x : Option Entry)
    (hplaces : t.places = s.places.set p x) (hx : s.PlaceFits t p x) : t.TablePart := by
  have hplace : ∀ q, t.place q = if p = q then x else s.place q := fun q => by
    rw [State.place_congr t (s.setPlace p x) hplaces, State.place_setPlace]
  have hself : t.place p = x := by rw [hplace, if_pos rfl]
  have hother : ∀ q, q ≠ p → t.place q = s.place q := fun q hq => by rw [hplace, if_neg (Ne.symm hq)]
  constructor
  case queuedOnce => exact hx.queuedOnce
  case queuedList =>
    intro q
    by_cases hq : q = p
    · rw [hq, State.entryIn, hself]
      exact hx.queuedSelf
    · rw [hx.queuedOthers q hq, State.entryIn, hother q hq]
      exact h.queuedList q
  case gathering =>
    intro q
    by_cases hq : q = p
    · rw [hq, State.entryIn, hself]
      exact hx.gathersSelf
    · rw [hx.gathersOthers q hq, State.entryIn, hother q hq]
      exact h.gathering q
  case cancelled =>
    intro q
    by_cases hq : q = p
    · rw [hq, State.entryIn, hself]
      exact hx.cancelsSelf
    · rw [hx.cancelsOthers q hq, State.entryIn, hother q hq]
      exact h.cancelled q
  case expiry =>
    intro q
    by_cases hq : q = p
    · rw [hq, hself]
      exact hx.expiry
    · rw [hother q hq]
      exact h.expiry q
  case keys =>
    intro q r e d he hd hne hne' h1 h2 h3
    by_cases hq : q = p
    · by_cases hr : r = p
      · rw [hq, hr]
      · rw [hq, hself] at he
        rw [hother r hr] at hd
        exact absurd h3 (hx.keys e he hne r d hr hd hne' h1 h2)
    · rw [hother q hq] at he
      by_cases hr : r = p
      · rw [hr, hself] at hd
        exact absurd h3.symm (hx.keys d hd hne' q e hq he hne h1.symm h2.symm)
      · rw [hother r hr] at hd
        exact h.keys q r e d he hd hne hne' h1 h2 h3

/-- The state of the one entry in a place. -/
theorem State.entryIn_iff_of_place {s : State} {p : PlaceIdx} {e : Entry} (he : s.place p = some e) (st : EntryState) :
    s.entryIn p st ↔ e.state = st := by
  simp [State.entryIn, he]

/-- A place is freed, and the engine serves it no more. -/
theorem State.TablePart.removed {s t : State} (h : s.TablePart) (p : PlaceIdx) (hplaces : t.places = s.places.set p none)
    (hqueue : t.queuedOrder = s.queuedOrder.erase p) (hgathers : ∀ q, t.gather.gathers q ↔ q ≠ p ∧ s.gather.gathers q)
    (hcancels : ∀ q, t.gather.cancels q ↔ q ≠ p ∧ s.gather.cancels q) : t.TablePart :=
  h.withPlace p none hplaces {
    keys := by simp
    queuedOnce := by rw [hqueue]; exact h.queuedOnce.erase p
    queuedSelf := by
      rw [hqueue]
      exact iff_of_false (fun hp => (h.queuedOnce.mem_erase_iff.mp hp).1 rfl) (by simp)
    queuedOthers := fun q hq => by rw [hqueue]; exact List.mem_erase_of_ne hq
    gathersSelf := by simp [hgathers]
    gathersOthers := fun q hq => by simp [hgathers, hq]
    cancelsSelf := by simp [hcancels]
    cancelsOthers := fun q hq => by simp [hcancels, hq]
    expiry := by simp }

/-- An entry becomes QUEUED, the newest, in a place that was free or READY (R113, R124). -/
theorem State.TablePart.enqueued {s t : State} (h : s.TablePart) (p : PlaceIdx) (e : Entry)
    (hplaces : t.places = s.places.set p (some e)) (hqueue : t.queuedOrder = s.queuedOrder ++ [p])
    (hgather : t.gather = s.gather) (hold : ∀ d, s.place p = some d → d.state = .ready) (hstate : e.state = .queued)
    (hexpiry : e.expiry = none) (hkeys : ∀ q d, q ≠ p → s.place q = some d → d.state ≠ .cancelled →
      e.requester = d.requester → e.address = d.address → e.beats ≠ d.beats) : t.TablePart := by
  have hnone : ∀ st, st ≠ .ready → ¬ s.entryIn p st := by
    rintro st hst ⟨d, hd, rfl⟩
    exact hst (hold d hd)
  have hout : p ∉ s.queuedOrder := fun hp => hnone .queued (by simp) ((h.queuedList p).mp hp)
  exact h.withPlace p (some e) hplaces {
    keys := fun d hd _ q d' hq hd' hne => by
      cases hd
      exact hkeys q d' hq hd' hne
    queuedOnce := by
      rw [hqueue]
      exact List.nodup_append.mpr ⟨h.queuedOnce, List.nodup_singleton p, fun q hq r hr hqr =>
        hout (List.mem_singleton.mp hr ▸ hqr ▸ hq)⟩
    queuedSelf := by simp [hqueue, hstate]
    queuedOthers := fun q hq => by simp [hqueue, hq]
    gathersSelf := by
      rw [hgather, ← h.gathering]
      exact iff_of_false (by simp [hstate]) (hnone _ (by simp))
    gathersOthers := fun _ _ => by rw [hgather]
    cancelsSelf := by
      rw [hgather, ← h.cancelled]
      exact iff_of_false (by simp [hstate]) (hnone _ (by simp))
    cancelsOthers := fun _ _ => by rw [hgather]
    expiry := fun d hd => by
      cases hd
      simp [hstate, hexpiry] }

/-! ### The engine's part -/

/-- The owner is the gather engine (R149). -/
def Owner.ofGather (o : Owner) : Prop := o = .immediateRead ∨ ∃ p, o = .place p

/-- What the law says of the engine, the port and the tags (R115, R117, R149). -/
structure State.EnginePart (s : State) : Prop where
  immediate : s.gather.servesPort → s.holdsImmediate
  held : s.holdsImmediate → s.gather.servesPort ∨ ∃ p, s.gather.cancels p
  readsOnce : s.gather.outstanding.Nodup
  atMostFour : s.gather.outstanding.length ≤ 4
  placeTag : ∀ t r p, s.tag t = some r → r.owner = .place p →
    t ∈ s.gather.outstanding ∧ (s.gather.reads p ∨ s.gather.cancels p)
  immediateTag : ∀ t r, s.tag t = some r → r.owner = .immediateRead → t ∈ s.gather.outstanding ∧ s.gather.servesPort
  readTag : ∀ t ∈ s.gather.outstanding, ∃ r, s.tag t = some r ∧ r.owner.ofGather
  waits : ∀ p job, s.gather = .cancelWait p job → job.outstanding ≠ []

theorem State.EnginePart.mem_outstanding {s : State} (h : s.EnginePart) (g : Tag) (r : TagRecord) (hr : s.tag g = some r)
    (ho : r.owner.ofGather) : g ∈ s.gather.outstanding := by
  rcases ho with ho | ⟨p, ho⟩
  · exact (h.immediateTag g r hr ho).1
  · exact (h.placeTag g r p hr ho).1

/-- The tags of the gather engine are the same in both states. -/
def State.GatherTags (t s : State) : Prop := ∀ g r, r.owner.ofGather → (t.tag g = some r ↔ s.tag g = some r)

theorem State.gatherTags_of_tags {s t : State} (h : t.tags = s.tags) : t.GatherTags s := fun g _ _ => by
  rw [State.tag_congr t s h]

theorem State.gatherTags_setTag {s t : State} (g : Tag) (x : Option TagRecord) (h : t.tags = s.tags.set g x)
    (hx : ∀ r, x = some r → ¬ r.owner.ofGather) (hs : ∀ r, s.tag g = some r → ¬ r.owner.ofGather) : t.GatherTags s :=
  fun j r ho => by
    rw [State.tag_congr t (s.setTag g x) h, State.tag_setTag]
    split
    · rename_i hgj
      subst hgj
      exact ⟨fun hr => absurd ho (hx r hr), fun hr => absurd ho (hs r hr)⟩
    · exact .rfl

/-- The engine goes on in its mode, with the same reads or with the reads of the changed tags. -/
theorem State.EnginePart.withReads {s t : State} (h : s.EnginePart)
    (hreads : ∀ p, s.gather.reads p ∨ s.gather.cancels p → t.gather.reads p ∨ t.gather.cancels p)
    (hcancels : ∀ p, s.gather.cancels p → t.gather.cancels p) (hserves : t.gather.servesPort ↔ s.gather.servesPort)
    (hport : t.holdsImmediate ↔ s.holdsImmediate) (hwaits : ∀ p job, t.gather = .cancelWait p job → job.outstanding ≠ [])
    (honce : t.gather.outstanding.Nodup) (hfour : t.gather.outstanding.length ≤ 4)
    (htags : ∀ g r, t.tag g = some r → r.owner.ofGather → g ∈ t.gather.outstanding ∧
      (s.tag g = some r ∨ (∀ p, r.owner = .place p → s.gather.reads p) ∧ (r.owner = .immediateRead → s.gather.servesPort)))
    (hread : ∀ g ∈ t.gather.outstanding, ∃ r, t.tag g = some r ∧ r.owner.ofGather) : t.EnginePart where
  immediate := fun hi => hport.mpr (h.immediate (hserves.mp hi))
  held := fun hheld => (h.held (hport.mp hheld)).imp hserves.mpr fun ⟨p, hp⟩ => ⟨p, hcancels p hp⟩
  readsOnce := honce
  atMostFour := hfour
  placeTag := fun g r p hr ho => by
    obtain ⟨hmem, hold | hnew⟩ := htags g r hr (.inr ⟨p, ho⟩)
    · exact ⟨hmem, hreads p (h.placeTag g r p hold ho).2⟩
    · exact ⟨hmem, hreads p (.inl (hnew.1 p ho))⟩
  immediateTag := fun g r hr ho => by
    obtain ⟨hmem, hold | hnew⟩ := htags g r hr (.inl ho)
    · exact ⟨hmem, hserves.mpr (h.immediateTag g r hold ho).2⟩
    · exact ⟨hmem, hserves.mpr (hnew.2 ho)⟩
  readTag := hread
  waits := hwaits

/-- The engine's reads are the same. -/
theorem State.EnginePart.congr {s t : State} (h : s.EnginePart) (hmode : s.gather.SameMode t.gather)
    (hout : t.gather.outstanding = s.gather.outstanding) (hport : t.holdsImmediate ↔ s.holdsImmediate)
    (htags : t.GatherTags s) : t.EnginePart :=
  h.withReads (fun p hp => hp.imp (hmode.reads p).mpr (hmode.cancels p).mpr) (fun p => (hmode.cancels p).mpr)
    hmode.servesPort hport
    (fun p job hjob => by
      obtain ⟨job', hjob'⟩ := (hmode.cancels p).mp ⟨job, hjob⟩
      rw [hjob, hjob'] at hout
      rw [show job.outstanding = job'.outstanding from hout]
      exact h.waits p job' hjob')
    (by rw [hout]; exact h.readsOnce) (by rw [hout]; exact h.atMostFour)
    (fun g r hr ho => by
      have hs := (htags g r ho).mp hr
      rw [hout]
      exact ⟨h.mem_outstanding g r hs ho, .inl hs⟩)
    (fun g hg => by
      rw [hout] at hg
      obtain ⟨r, hr, ho⟩ := h.readTag g hg
      exact ⟨r, (htags g r ho).mpr hr, ho⟩)

/-- An engine without reads and without a CANCELLED entry. -/
theorem State.enginePart_of_quiet {s : State} (hout : s.gather.outstanding = []) (hcancels : ∀ p, ¬ s.gather.cancels p)
    (hport : s.gather.servesPort ↔ s.holdsImmediate) (htags : ∀ g r, s.tag g = some r → ¬ r.owner.ofGather) :
    s.EnginePart where
  immediate := hport.mp
  held := fun h => .inl (hport.mpr h)
  readsOnce := by simp [hout]
  atMostFour := by simp [hout]
  placeTag := fun g r p hr ho => absurd (.inr ⟨p, ho⟩) (htags g r hr)
  immediateTag := fun g r hr ho => absurd (.inl ho) (htags g r hr)
  readTag := by simp [hout]
  waits := fun p job h => absurd ⟨job, h⟩ (hcancels p)

theorem State.EnginePart.no_tags {s : State} (h : s.EnginePart) (hout : s.gather.outstanding = []) (g : Tag)
    (r : TagRecord) (hr : s.tag g = some r) : ¬ r.owner.ofGather := fun ho => by
  have := h.mem_outstanding g r hr ho
  rw [hout] at this
  cases this

/-- One of the engine's reads completes, and its tag is FREE. -/
theorem State.EnginePart.readCompletes {s t : State} (h : s.EnginePart) (g : Tag)
    (hmode : s.gather.SameMode t.gather) (hout : t.gather.outstanding = s.gather.outstanding.erase g)
    (hport : t.port = s.port) (htags : t.tags = s.tags.set g none)
    (hwaits : ∀ p job, t.gather = .cancelWait p job → job.outstanding ≠ []) : t.EnginePart := by
  have htag : ∀ j, t.tag j = if g = j then none else s.tag j := fun j => by
    rw [State.tag_congr t (s.setTag g none) htags, State.tag_setTag]
  refine h.withReads (fun p hp => hp.imp (hmode.reads p).mpr (hmode.cancels p).mpr) (fun p => (hmode.cancels p).mpr)
    hmode.servesPort (by rw [State.holdsImmediate, hport]; rfl) hwaits (by rw [hout]; exact h.readsOnce.erase g) ?_ ?_ ?_
  · rw [hout]
    exact (List.length_erase_le).trans h.atMostFour
  · intro j r hr ho
    rw [htag] at hr
    split at hr
    · cases hr
    · rename_i hne
      rw [hout]
      exact ⟨(List.mem_erase_of_ne (Ne.symm hne)).mpr (h.mem_outstanding j r hr ho), .inl hr⟩
  · intro j hj
    rw [hout] at hj
    obtain ⟨hne, hj⟩ := h.readsOnce.mem_erase_iff.mp hj
    obtain ⟨r, hr, ho⟩ := h.readTag j hj
    exact ⟨r, by rw [htag, if_neg (Ne.symm hne)]; exact hr, ho⟩

/-- The engine issues a read under a FREE tag (R120, R150). -/
theorem State.EnginePart.readIssued {s t : State} (h : s.EnginePart) (g : Tag) (x : TagRecord) (hfree : s.tag g = none)
    (hmode : s.gather.SameMode t.gather) (hout : t.gather.outstanding = s.gather.outstanding ++ [g])
    (hroom : s.gather.outstanding.length < 4) (hport : t.port = s.port) (htags : t.tags = s.tags.set g (some x))
    (hx : x.owner.ofGather)
    (hserved : (∀ p, x.owner = .place p → s.gather.reads p) ∧ (x.owner = .immediateRead → s.gather.servesPort)) :
    t.EnginePart := by
  have htag : ∀ j, t.tag j = if g = j then some x else s.tag j := fun j => by
    rw [State.tag_congr t (s.setTag g (some x)) htags, State.tag_setTag]
  have hnew : g ∉ s.gather.outstanding := fun hg => by
    obtain ⟨r, hr, -⟩ := h.readTag g hg
    rw [hfree] at hr
    cases hr
  refine h.withReads (fun p hp => hp.imp (hmode.reads p).mpr (hmode.cancels p).mpr) (fun p => (hmode.cancels p).mpr)
    hmode.servesPort (by rw [State.holdsImmediate, hport]; rfl) ?_ ?_ ?_ ?_ ?_
  · intro p job hjob hnone
    rw [hjob, show (Gather.cancelWait p job).outstanding = job.outstanding from rfl, hnone] at hout
    simp at hout
  · rw [hout]
    exact List.nodup_append.mpr ⟨h.readsOnce, List.nodup_singleton g, fun j hj i hi hji =>
      hnew (List.mem_singleton.mp hi ▸ hji ▸ hj)⟩
  · rw [hout, List.length_append]
    exact hroom
  · intro j r hr ho
    rw [htag] at hr
    rw [hout]
    split at hr
    · rename_i hgj
      cases hr
      exact ⟨by simp [← hgj], .inr hserved⟩
    · exact ⟨List.mem_append_left _ (h.mem_outstanding j r hr ho), .inl hr⟩
  · intro j hj
    rw [hout] at hj
    rcases List.mem_append.mp hj with hj | hj
    · obtain ⟨r, hr, ho⟩ := h.readTag j hj
      have hne : g ≠ j := fun hgj => hnew (hgj ▸ hj)
      exact ⟨r, by rw [htag, if_neg hne]; exact hr, ho⟩
    · obtain rfl := List.mem_singleton.mp hj
      exact ⟨x, by rw [htag, if_pos rfl], hx⟩

/-! ### Both parts -/

/-- What is left of the law within an event, when an IDLE engine can leave an entry QUEUED. -/
structure State.DeferredCore (s : State) : Prop where
  table : s.TablePart
  engine : s.EnginePart

theorem State.DeferredLaw.core {s : State} (h : s.DeferredLaw) : s.DeferredCore where
  table := ⟨h.keys, h.queuedOnce, h.queuedList, h.gathering, h.cancelled, h.expiry⟩
  engine := ⟨h.immediate, fun hheld => (h.held hheld).imp id fun ⟨p, job, hp⟩ => ⟨p, job, hp⟩, h.readsOnce,
    h.atMostFour, h.placeTag, h.immediateTag, h.readTag, h.waits⟩

theorem State.DeferredCore.law {s : State} (h : s.DeferredCore) (hidle : s.gather = .idle → s.queuedOrder = []) :
    s.DeferredLaw where
  keys := h.table.keys
  queuedOnce := h.table.queuedOnce
  queuedList := h.table.queuedList
  gathering := h.table.gathering
  cancelled := h.table.cancelled
  expiry := h.table.expiry
  immediate := h.engine.immediate
  held := fun hheld => (h.engine.held hheld).imp id fun ⟨p, job, hp⟩ => ⟨p, job, hp⟩
  readsOnce := h.engine.readsOnce
  atMostFour := h.engine.atMostFour
  placeTag := h.engine.placeTag
  immediateTag := h.engine.immediateTag
  readTag := h.engine.readTag
  waits := h.engine.waits
  idleTakes := hidle

theorem State.DeferredCore.congr {s t : State} (h : s.DeferredCore)
    (hplaces : ∀ p, (t.place p).map Entry.keyed = (s.place p).map Entry.keyed) (hqueue : t.queuedOrder = s.queuedOrder)
    (hgather : t.gather = s.gather) (hport : t.holdsImmediate ↔ s.holdsImmediate) (htags : t.GatherTags s) :
    t.DeferredCore where
  table := h.table.congr hplaces hqueue (fun p => by rw [hgather]) (fun p => by rw [hgather])
  engine := h.engine.congr (by rw [hgather]; exact .refl _) (by rw [hgather]) hport htags

theorem State.DeferredLaw.congr {s t : State} (h : s.DeferredLaw)
    (hplaces : ∀ p, (t.place p).map Entry.keyed = (s.place p).map Entry.keyed) (hqueue : t.queuedOrder = s.queuedOrder)
    (hgather : t.gather = s.gather) (hport : t.holdsImmediate ↔ s.holdsImmediate) (htags : t.GatherTags s) :
    t.DeferredLaw :=
  (h.core.congr hplaces hqueue hgather hport htags).law (by rw [hgather, hqueue]; exact h.idleTakes)

theorem State.DeferredCore.same {s t : State} (h : s.DeferredCore) (hplaces : t.places = s.places)
    (hqueue : t.queuedOrder = s.queuedOrder) (hgather : t.gather = s.gather) (hport : t.port = s.port)
    (htags : t.GatherTags s) : t.DeferredCore :=
  h.congr (fun p => by rw [State.place_congr t s hplaces]) hqueue hgather
    (by rw [State.holdsImmediate, State.holdsImmediate, hport]) htags

theorem State.DeferredLaw.same {s t : State} (h : s.DeferredLaw) (hplaces : t.places = s.places)
    (hqueue : t.queuedOrder = s.queuedOrder) (hgather : t.gather = s.gather) (hport : t.port = s.port)
    (htags : t.GatherTags s) : t.DeferredLaw :=
  h.congr (fun p => by rw [State.place_congr t s hplaces]) hqueue hgather
    (by rw [State.holdsImmediate, State.holdsImmediate, hport]) htags

/-- The entry that the engine gathers for. -/
theorem State.TablePart.gathering_entry {s : State} (h : s.TablePart) (p : PlaceIdx) (hg : s.gather.gathers p) :
    ∃ e, s.place p = some e ∧ e.state = .gathering := (h.gathering p).mpr hg

/-- An engine that serves neither the port nor a CANCELLED entry: no immediate read is held. -/
theorem State.EnginePart.not_held {s : State} (h : s.EnginePart) (hserves : ¬ s.gather.servesPort)
    (hcancels : ∀ p, ¬ s.gather.cancels p) : ¬ s.holdsImmediate := fun hheld =>
  (h.held hheld).elim hserves fun ⟨p, hp⟩ => hcancels p hp

/-- An engine without reads goes on gathering for the same entry (R119). -/
theorem State.DeferredCore.regathers {s : State} (h : s.DeferredCore) (p : PlaceIdx) (hs : s.gather.gathers p)
    (hout : s.gather.outstanding = []) (g : Gather) (hg : g.gathers p) (hgout : g.outstanding = []) :
    State.DeferredCore { s with gather := g } where
  table := h.table.congr (fun _ => rfl) rfl
    (fun q => (Gather.gathers_iff_eq hg q).trans (Gather.gathers_iff_eq hs q).symm)
    (fun q => iff_of_false (Gather.not_cancels_of_gathers hg q) (Gather.not_cancels_of_gathers hs q))
  engine := State.enginePart_of_quiet hgout (Gather.not_cancels_of_gathers hg)
    (iff_of_false (Gather.not_servesPort_of_gathers hg)
      (h.engine.not_held (Gather.not_servesPort_of_gathers hs) (Gather.not_cancels_of_gathers hs)))
    (h.engine.no_tags hout)

/-- Where the engine goes for an entry (R118, R119): it gathers for it, with no read issued. -/
theorem State.gatherServe_gathers (s : State) (p : PlaceIdx) (e : Entry) :
    ∃ g, (s.gatherServe p e).1 = { s with gather := g } ∧ g.gathers p ∧ g.outstanding = [] := by
  unfold State.gatherServe State.gatherSnapshot
  dsimp only
  split
  · split
    · exact ⟨_, rfl, .inr (.inr ⟨_, rfl⟩), rfl⟩
    · exact ⟨_, rfl, .inr (.inl ⟨_, rfl⟩), rfl⟩
  · exact ⟨_, rfl, .inl rfl, rfl⟩

theorem Gather.ne_idle_of_gathers {g : Gather} {p : PlaceIdx} (h : g.gathers p) : g ≠ .idle := by
  rcases h with rfl | ⟨sn, rfl⟩ | ⟨job, rfl⟩ <;> simp

/-- An IDLE engine takes the oldest QUEUED entry (R118). -/
theorem State.DeferredCore.takes {s : State} (h : s.DeferredCore) (p : PlaceIdx) (rest : List PlaceIdx) (e : Entry)
    (hidle : s.gather = .idle) (hqueue : s.queuedOrder = p :: rest) (he : s.place p = some e) (g : Gather)
    (hg : g.gathers p) (hgout : g.outstanding = []) : State.DeferredCore { s with
      queuedOrder := rest, places := s.places.set p (some { e with state := .gathering }), gather := g } := by
  have honce := h.table.queuedOnce
  rw [hqueue, List.nodup_cons] at honce
  have hqueued : e.state = .queued := (State.entryIn_iff_of_place he .queued).mp
    ((h.table.queuedList p).mp (by rw [hqueue]; exact List.mem_cons_self))
  have hserves : ¬ s.gather.servesPort := by simp [hidle, Gather.servesPort]
  have hcancels : ∀ q, ¬ s.gather.cancels q := by simp [hidle, Gather.cancels]
  refine ⟨h.table.withPlace p _ rfl ?_, State.enginePart_of_quiet hgout (Gather.not_cancels_of_gathers hg)
    (iff_of_false (Gather.not_servesPort_of_gathers hg) (h.engine.not_held hserves hcancels))
    (h.engine.no_tags (by rw [hidle]; rfl))⟩
  exact {
    keys := fun d hd _ q d' hq hd' hne h1 h2 h3 => by
      cases hd
      exact hq (h.table.keys q p d' e hd' he hne (by simp [hqueued]) h1.symm h2.symm h3.symm)
    queuedOnce := honce.2
    queuedSelf := iff_of_false honce.1 (by simp)
    queuedOthers := fun q hq => by rw [hqueue, List.mem_cons, or_iff_right hq]
    gathersSelf := iff_of_true ⟨_, rfl, rfl⟩ hg
    gathersOthers := fun q hq => iff_of_false (fun hq' => hq ((Gather.gathers_iff_eq hg q).mp hq'))
      (by simp [hidle, Gather.gathers])
    cancelsSelf := iff_of_false (by simp) (Gather.not_cancels_of_gathers hg p)
    cancelsOthers := fun q _ => iff_of_false (Gather.not_cancels_of_gathers hg q) (hcancels q)
    expiry := fun d hd => by
      cases hd
      have hexpiry := h.table.expiry p e he
      rw [hqueued] at hexpiry
      simpa using hexpiry }

/-- The engine's progress in an event leaves no entry QUEUED while it is IDLE (R118, R119). -/
theorem State.DeferredCore.gatherProgress {s : State} (h : s.DeferredCore) : s.gatherProgress.1.DeferredLaw := by
  have goes : ∀ p, s.gather.gathers p → s.gather.outstanding = [] → ∀ g, g.gathers p → g.outstanding = [] →
      State.DeferredLaw { s with gather := g } := fun p hs hout g hg hgout =>
    (h.regathers p hs hout g hg hgout).law fun hidle => absurd hidle (Gather.ne_idle_of_gathers hg)
  cases hgather : s.gather with
  | idle =>
    cases hqueue : s.queuedOrder with
    | nil =>
      have hsame : s.gatherProgress = (s, []) := by
        unfold State.gatherProgress
        rw [hgather]
        dsimp only
        rw [hqueue]
      rw [hsame]
      exact h.law fun _ => hqueue
    | cons p rest =>
      obtain ⟨e, he, -⟩ := (h.table.queuedList p).mp (by rw [hqueue]; exact List.mem_cons_self)
      obtain ⟨g, heq, hg, hgout⟩ := State.gatherServe_gathers
        (State.setPlace { s with queuedOrder := rest } p (some { e with state := .gathering })) p e
      rw [s.gatherProgress_takes p rest e hgather hqueue he, heq]
      exact (h.takes p rest e hgather hqueue he g hg hgout).law fun hidle => absurd hidle (Gather.ne_idle_of_gathers hg)
  | priorWait p =>
    have hs : s.gather.gathers p := .inl hgather
    obtain ⟨e, he, -⟩ := h.table.gathering_entry p hs
    obtain ⟨g, heq, hg, hgout⟩ := s.gatherServe_gathers p e
    rw [s.gatherProgress_priorWait p e hgather he, heq]
    exact goes p hs (by rw [hgather]; rfl) g hg hgout
  | slotWait p snapshot =>
    have hs : s.gather.gathers p := .inr (.inl ⟨snapshot, hgather⟩)
    obtain ⟨e, he, -⟩ := h.table.gathering_entry p hs
    rw [s.gatherProgress_slotWait p snapshot e hgather he]
    split
    · exact goes p hs (by rw [hgather]; rfl) _ (.inr (.inr ⟨_, rfl⟩)) rfl
    · exact h.law (by simp [hgather])
  | reading p job =>
    have hsame : s.gatherProgress = (s, []) := by unfold State.gatherProgress; rw [hgather]
    rw [hsame]
    exact h.law (by simp [hgather])
  | cancelWait p job =>
    have hsame : s.gatherProgress = (s, []) := by unfold State.gatherProgress; rw [hgather]
    rw [hsame]
    exact h.law (by simp [hgather])
  | immediate job buffer =>
    have hsame : s.gatherProgress = (s, []) := by unfold State.gatherProgress; rw [hgather]
    rw [hsame]
    exact h.law (by simp [hgather])

theorem State.DeferredCore.settle {s : State} (h : s.DeferredCore) (causes : List Cause) :
    (s.settle causes).DeferredLaw := by
  obtain ⟨_, _, _, _, _, hport, _, _, _, htags, -⟩ := s.settle_keeps causes
  obtain ⟨_, _, _, _, _, hgather, hplaces, hqueue⟩ := s.settle_fields causes
  obtain ⟨g, order, places, heq⟩ := s.gatherProgress_frame
  refine h.gatherProgress.same hplaces hqueue hgather ?_ (State.gatherTags_of_tags ?_)
  · rw [hport, heq]
  · rw [htags, heq]

end Sys2Proof.Machine
end

section
/-! SUPPORT. Every command keeps the law of the deferred read table (R106 to R129). -/

namespace Sys2Proof.Machine

/-! ### Freeing, queueing and immediate reads -/

/-- The engine serves the GATHERING and the CANCELLED entry alone (R107, R117). -/
theorem State.TablePart.not_served {s : State} (h : s.TablePart) (p : PlaceIdx) (e : Entry) (he : s.place p = some e)
    (hg : e.state ≠ .gathering) (hc : e.state ≠ .cancelled) : ¬ s.gather.gathers p ∧ ¬ s.gather.cancels p :=
  ⟨fun hp => hg ((State.entryIn_iff_of_place he _).mp ((h.gathering p).mpr hp)),
    fun hp => hc ((State.entryIn_iff_of_place he _).mp ((h.cancelled p).mpr hp))⟩

/-- An entry that the engine does not serve is freed. -/
theorem State.DeferredCore.freePlace {s : State} (h : s.DeferredCore) (p : PlaceIdx) (e : Entry) (he : s.place p = some e)
    (hg : e.state ≠ .gathering) (hc : e.state ≠ .cancelled) : (s.freePlace p).DeferredCore := by
  obtain ⟨hgathers, hcancels⟩ := h.table.not_served p e he hg hc
  exact {
    table := h.table.removed p rfl rfl (fun q => ⟨fun hq => ⟨fun hqp => hgathers (hqp ▸ hq), hq⟩, And.right⟩)
      (fun q => ⟨fun hq => ⟨fun hqp => hcancels (hqp ▸ hq), hq⟩, And.right⟩)
    engine := h.engine.congr (.refl _) rfl .rfl (State.gatherTags_of_tags rfl) }

theorem State.DeferredLaw.frees {s : State} (h : s.DeferredLaw) (p : PlaceIdx) (e : Entry) (he : s.place p = some e)
    (hstate : e.state = .ready ∨ e.state = .failed ∨ e.expiry.isSome = true) : (s.freePlace p).DeferredLaw := by
  have hdone : e.state = .ready ∨ e.state = .failed := by
    rcases hstate with hr | hf | hx
    · exact .inl hr
    · exact .inr hf
    · exact (h.expiry p e he).mp hx
  refine (h.core.freePlace p e he (by rcases hdone with hd | hd <;> simp [hd])
    (by rcases hdone with hd | hd <;> simp [hd])).law fun hidle => ?_
  rw [State.freePlace, h.idleTakes hidle]
  rfl

/-- A READY entry is queued again (R124). -/
theorem State.DeferredLaw.requeues {s : State} (h : s.DeferredLaw) (p : PlaceIdx) (e : Entry) (ps : PriorSet)
    (he : s.place p = some e) (hready : e.state = .ready) : State.DeferredCore
    { s.setPlace p (some (e.requeued ps)) with queuedOrder := s.queuedOrder ++ [p] } where
  table := h.core.table.enqueued p (e.requeued ps) rfl rfl rfl (fun d hd => by
    rw [he] at hd
    cases hd
    exact hready) rfl rfl fun q d hq hd hne h1 h2 h3 =>
      hq (h.keys q p d e hd he hne (by simp [hready]) h1.symm h2.symm h3.symm)
  engine := h.core.engine.congr (.refl _) rfl .rfl (State.gatherTags_of_tags rfl)

/-- A new entry (R113). -/
theorem State.DeferredLaw.creates {s : State} (h : s.DeferredLaw) (p : PlaceIdx) (r : Request) (i : ApertureIdx)
    (ps : PriorSet) (hkey : s.entryWith r.requester r.address r.beats = none) (hp : s.place p = none) : State.DeferredCore
    { s.setPlace p (some ⟨r.requester, r.address, r.beats, i, .queued, false, ps, ReadBuffer.blank, none⟩) with
      queuedOrder := s.queuedOrder ++ [p] } where
  table := h.core.table.enqueued p _ rfl rfl rfl (fun d hd => by
    rw [hp] at hd
    cases hd) rfl rfl fun q d _ hd hne h1 h2 h3 =>
      (s.entryWith_eq_none _ _ _).mp hkey q d hd hne h1.symm h2.symm h3.symm
  engine := h.core.engine.congr (.refl _) rfl .rfl (State.gatherTags_of_tags rfl)

theorem State.not_holdsImmediate_of_idle {s : State} (h : s.port = .idle) : ¬ s.holdsImmediate := by
  rintro ⟨r, i, hr, -⟩
  rw [h] at hr
  cases hr

/-- An immediate read waits for no entry (R112). -/
theorem State.immediateOk_entries (s : State) (r : Request) (i : ApertureIdx) (h : s.immediateOk r i = true)
    (p : PlaceIdx) (e : Entry) (he : s.place p = some e) : e.state ≠ .queued ∧ e.state ≠ .gathering := by
  simp only [State.immediateOk, Bool.and_eq_true, List.all_eq_true] at h
  have := h.2 p (List.mem_finRange p)
  rw [he] at this
  constructor <;> (intro hst; simp [hst, EntryState.defeatsImmediate] at this)

/-- The engine takes an immediate read, or will take it when the CANCELLED entry is freed (R115). -/
theorem State.DeferredLaw.immediates {s : State} (h : s.DeferredLaw) (r : Request) (i : ApertureIdx)
    (hidle : s.port = .idle) (hok : s.immediateOk r i = true) :
    ((s.hold r (.immediate i)).takeImmediate (s.readFootprint r i)).DeferredLaw := by
  have hfree := State.not_holdsImmediate_of_idle hidle
  have nobody : ∀ p, ¬ s.gather.gathers p := fun p hp => by
    obtain ⟨e, he, hstate⟩ := h.core.table.gathering_entry p hp
    exact (s.immediateOk_entries r i hok p e he).2 hstate
  have hheld : ∀ g, State.holdsImmediate { s.hold r (.immediate i) with gather := g } := fun _ => ⟨_, i, rfl, rfl⟩
  unfold State.takeImmediate
  cases hgather : (s.hold r (.immediate i)).gather with
  | idle =>
    have hs : s.gather = .idle := hgather
    have hnone := h.idleTakes hs
    refine State.DeferredCore.law ⟨h.core.table.congr (fun _ => rfl) rfl ?_ ?_, ?_⟩ (by simp)
    · simp [hs, Gather.gathers]
    · simp [hs, Gather.cancels]
    · exact State.enginePart_of_quiet rfl (by simp [Gather.cancels]) (iff_of_true ⟨_, _, rfl⟩ (hheld _))
        (h.core.engine.no_tags (by rw [hs]; rfl))
  | cancelWait p job =>
    have hs : s.gather = .cancelWait p job := hgather
    have hengine := h.core.engine
    exact State.DeferredCore.law ⟨h.core.table.congr (fun _ => rfl) rfl (fun _ => .rfl) (fun _ => .rfl),
      ⟨fun _ => hheld s.gather, fun _ => .inr ⟨p, job, hs⟩, hengine.readsOnce, hengine.atMostFour, hengine.placeTag,
        hengine.immediateTag, hengine.readTag, hengine.waits⟩⟩ h.idleTakes
  | immediate job buffer => exact absurd (h.immediate ⟨job, buffer, hgather⟩) hfree
  | priorWait p => exact absurd (.inl hgather) (nobody p)
  | slotWait p snapshot => exact absurd (.inr (.inl ⟨snapshot, hgather⟩)) (nobody p)
  | reading p job => exact absurd (.inr (.inr ⟨job, hgather⟩)) (nobody p)

/-! ### Grants -/

theorem ReadJob.offer_eq_some (j : ReadJob) (line : Addr) (h : j.offer = some line) : j.outstanding.length < 4 := by
  unfold ReadJob.offer at h
  split at h
  · rename_i hroom
    exact hroom
  · cases h

/-- The engine issues its next line (R115, R120). -/
theorem State.DeferredLaw.issuesGather {s : State} (h : s.DeferredLaw) (g : Tag) (line : Addr) (hfree : s.tag g = none)
    (ho : s.gatherOffer = some line) : (s.issueGather g line).DeferredLaw := by
  unfold State.issueGather
  unfold State.gatherOffer at ho
  cases hgather : s.gather with
  | reading p job =>
    rw [hgather] at ho
    have hmode := Gather.sameMode_reading p job (job.issued g)
    refine State.DeferredCore.law ⟨h.core.table.congr (fun _ => rfl) rfl ?_ ?_, ?_⟩ (by simp)
    · rw [hgather]; exact hmode.gathers
    · rw [hgather]; exact hmode.cancels
    · refine h.core.engine.readIssued g ⟨.gather, .read, line, .place p⟩ hfree (by rw [hgather]; exact hmode)
        (by rw [hgather]; rfl) (by rw [hgather]; exact job.offer_eq_some line ho) rfl rfl (.inr ⟨p, rfl⟩) ⟨?_, by simp⟩
      rintro q hq
      cases hq
      exact ⟨job, hgather⟩
  | immediate job buffer =>
    rw [hgather] at ho
    have hmode := Gather.sameMode_immediate job (job.issued g) buffer buffer
    refine State.DeferredCore.law ⟨h.core.table.congr (fun _ => rfl) rfl ?_ ?_, ?_⟩ (by simp)
    · rw [hgather]; exact hmode.gathers
    · rw [hgather]; exact hmode.cancels
    · exact h.core.engine.readIssued g ⟨.gather, .read, line, .immediateRead⟩ hfree (by rw [hgather]; exact hmode)
        (by rw [hgather]; rfl) (by rw [hgather]; exact job.offer_eq_some line ho) rfl rfl (.inl rfl)
        ⟨by simp, fun _ => ⟨job, buffer, hgather⟩⟩
  | idle => exact h
  | priorWait p => exact h
  | slotWait p snapshot => exact h
  | cancelWait p job => exact h

/-! ### Completions -/

/-- After the last read no tag of the engine is left. -/
theorem State.EnginePart.no_tags_left {s : State} (h : s.EnginePart) (g : Tag) (hlast : s.gather.outstanding.erase g = [])
    (j : Tag) (r : TagRecord) (hr : (s.setTag g none).tag j = some r) : ¬ r.owner.ofGather := fun ho => by
  rw [State.tag_setTag] at hr
  split at hr
  · cases hr
  · rename_i hne
    have := (List.mem_erase_of_ne (Ne.symm hne)).mpr (h.mem_outstanding j r hr ho)
    rw [hlast] at this
    cases this

theorem ReadJob.outstanding_of_ended (j : ReadJob) (t : Tag) (o : MemOutcome) (h : (j.completedOne t o).ended = true) :
    j.outstanding.erase t = [] := by
  simp only [ReadJob.ended, Bool.and_eq_true, List.isEmpty_iff] at h
  exact h.1

/-- An immediate read's line comes back (R115). -/
theorem State.DeferredLaw.immediateCompletes {s : State} (h : s.DeferredLaw) (t : Tag) (rec : TagRecord) (o : MemOutcome)
    (hrec : s.tag t = some rec) (ho : rec.owner = .immediateRead) :
    (((∀ job buffer, s.gather ≠ .immediate job buffer) ∨ ¬ s.holdsImmediate) → (s.setTag t none).DeferredLaw) ∧
    ∀ job buffer, s.gather = .immediate job buffer → s.holdsImmediate →
      (∀ buf, State.DeferredLaw { s.setTag t none with gather := .immediate (job.completedOne t o) buf }) ∧
      ((job.completedOne t o).ended = true →
        State.DeferredCore { s.setTag t none with gather := .idle, port := .idle }) := by
  obtain ⟨-, hserves⟩ := h.core.engine.immediateTag t rec hrec ho
  refine ⟨fun hlost => ?_, fun job buffer hgather _ => ⟨fun buf => ?_, fun hended => ?_⟩⟩
  · have hheld := h.core.engine.immediate hserves
    obtain ⟨job, buffer, hgather⟩ := hserves
    exact (hlost.elim (fun hne => hne job buffer hgather) fun hne => hne hheld).elim
  · have hmode := Gather.sameMode_immediate job (job.completedOne t o) buffer buf
    refine State.DeferredCore.law ⟨h.core.table.congr (fun _ => rfl) rfl ?_ ?_, ?_⟩ (by simp)
    · rw [hgather]; exact hmode.gathers
    · rw [hgather]; exact hmode.cancels
    · exact h.core.engine.readCompletes t (by rw [hgather]; exact hmode) (by rw [hgather]; rfl) rfl rfl (by simp)
  · refine ⟨h.core.table.congr (fun _ => rfl) rfl ?_ ?_, ?_⟩
    · simp [hgather, Gather.gathers]
    · simp [hgather, Gather.cancels]
    · refine State.enginePart_of_quiet rfl (by simp [Gather.cancels])
        (iff_of_false (by simp [Gather.servesPort]) (State.not_holdsImmediate_of_idle rfl)) ?_
      exact h.core.engine.no_tags_left t (by rw [hgather]; exact job.outstanding_of_ended t o hended)

/-- The engine leaves CANCEL_WAIT (R129): to IDLE, or to the immediate read that waits. -/
theorem State.afterCancel_eq (s : State) : ∃ g, s.afterCancel = { s with gather := g } ∧ g.outstanding = [] ∧
    (∀ p, ¬ g.gathers p) ∧ (∀ p, ¬ g.cancels p) ∧ (g.servesPort ↔ s.holdsImmediate) := by
  unfold State.afterCancel
  cases hwaiting : s.waitingImmediate with
  | none =>
    refine ⟨_, rfl, rfl, by simp [Gather.gathers], by simp [Gather.cancels], iff_of_false (by simp [Gather.servesPort]) ?_⟩
    rintro ⟨r, i, hport, hservice⟩
    simp [State.waitingImmediate, hport, hservice] at hwaiting
  | some ri =>
    refine ⟨_, rfl, rfl, by simp [Gather.gathers], by simp [Gather.cancels], iff_of_true ⟨_, _, rfl⟩ ?_⟩
    unfold State.waitingImmediate at hwaiting
    split at hwaiting
    · cases hwaiting
    · rename_i r hport
      split at hwaiting
      · rename_i i hservice
        exact ⟨r, i, hport, hservice⟩
      · cases hwaiting

/-- The entry in place `p` changes in what the law does not read. -/
theorem State.keyed_setPlace (s : State) (p q : PlaceIdx) (e e' : Entry) (he : s.place p = some e)
    (hkeyed : e'.keyed = e.keyed) : ((s.setPlace p (some e')).place q).map Entry.keyed = (s.place q).map Entry.keyed := by
  rw [State.place_setPlace]
  split
  · rename_i hpq
    rw [← hpq, he, Option.map_some, Option.map_some, hkeyed]
  · rfl

/-- The gather of the entry in place `p` ends (R121). -/
theorem State.TablePart.gathered {s t : State} (h : s.TablePart) (p : PlaceIdx) (e e' : Entry) (he : s.place p = some e)
    (hg : s.gather.gathers p) (hplaces : t.places = s.places.set p (some e')) (hqueue : t.queuedOrder = s.queuedOrder)
    (hgather : t.gather = .idle) (hrequester : e'.requester = e.requester) (haddress : e'.address = e.address)
    (hbeats : e'.beats = e.beats) (hstate : e'.state = .ready ∨ e'.state = .failed) (hexpiry : e'.expiry.isSome = true) :
    t.TablePart := by
  have hgathering : e.state = .gathering := (State.entryIn_iff_of_place he _).mp ((h.gathering p).mpr hg)
  have hcancels := Gather.not_cancels_of_gathers hg
  exact h.withPlace p (some e') hplaces {
    keys := fun d hd _ q d' hq hd' hne h1 h2 h3 => by
      cases hd
      rw [hrequester] at h1
      rw [haddress] at h2
      rw [hbeats] at h3
      exact hq (h.keys q p d' e hd' he hne (by simp [hgathering]) h1.symm h2.symm h3.symm)
    queuedOnce := by rw [hqueue]; exact h.queuedOnce
    queuedSelf := by
      rw [hqueue, h.queuedList, State.entryIn_iff_of_place he, hgathering]
      rcases hstate with hd | hd <;> simp [hd]
    queuedOthers := fun _ _ => by rw [hqueue]
    gathersSelf := by
      rw [hgather]
      rcases hstate with hd | hd <;> simp [hd, Gather.gathers]
    gathersOthers := fun q hq => by
      rw [Gather.gathers_iff_eq hg, hgather]
      simp [hq, Gather.gathers]
    cancelsSelf := by
      rw [hgather]
      rcases hstate with hd | hd <;> simp [hd, Gather.cancels]
    cancelsOthers := fun q _ => by
      rw [hgather]
      exact iff_of_false (by simp [Gather.cancels]) (hcancels q)
    expiry := fun d hd => by
      cases hd
      exact iff_of_true hexpiry hstate }

theorem Entry.gathered_state (e : Entry) (faulted : Bool) (expiry : Nat) :
    (e.gathered faulted expiry).state = .ready ∨ (e.gathered faulted expiry).state = .failed := by
  unfold Entry.gathered
  cases faulted <;> simp

/-- The entry that the engine waits for is freed with its last read (R129). -/
theorem State.DeferredCore.cancelEnds {s : State} (h : s.DeferredCore) (t : Tag) (p : PlaceIdx) (job : ReadJob)
    (hgather : s.gather = .cancelWait p job) (hlast : job.outstanding.erase t = []) :
    ((s.setTag t none).freePlace p).afterCancel.DeferredCore := by
  obtain ⟨g, heq, hout, hgathers, hcancels, hserves⟩ := ((s.setTag t none).freePlace p).afterCancel_eq
  rw [heq]
  refine ⟨h.table.removed p rfl rfl (fun q => iff_of_false (hgathers q) ?_) (fun q => iff_of_false (hcancels q) ?_), ?_⟩
  · simp [hgather, Gather.gathers]
  · rintro ⟨hq, job', hjob'⟩
    rw [hgather] at hjob'
    cases hjob'
    exact hq rfl
  · exact State.enginePart_of_quiet hout hcancels hserves (h.engine.no_tags_left t (by rw [hgather]; exact hlast))

/-- A line read of an entry comes back (R120, R121, R129). -/
theorem State.DeferredLaw.entryCompletes {s : State} (h : s.DeferredLaw) (t : Tag) (rec : TagRecord) (o : MemOutcome)
    (p : PlaceIdx) (hrec : s.tag t = some rec) (ho : rec.owner = .place p) :
    ((s.place p = none ∨ ∀ q job, s.gather ≠ .reading q job ∧ s.gather ≠ .cancelWait q job) →
      (s.setTag t none).DeferredLaw) ∧
    ∀ e, s.place p = some e →
      (∀ q job buf, s.gather = .reading q job →
        State.DeferredLaw { (s.setTag t none).setPlace p (some { e with buffer := buf }) with
          gather := .reading q (job.completedOne t o) } ∧
        ((job.completedOne t o).ended = true → ∀ faulted expiry, State.DeferredCore { (s.setTag t none).setPlace p
          (some ({ e with buffer := buf }.gathered faulted expiry)) with gather := .idle })) ∧
      (∀ q job, s.gather = .cancelWait q job →
        ((job.completedOne t o).outstanding ≠ [] →
          State.DeferredLaw { s.setTag t none with gather := .cancelWait q (job.completedOne t o) }) ∧
        ((job.completedOne t o).outstanding = [] → ((s.setTag t none).freePlace p).afterCancel.DeferredCore)) := by
  obtain ⟨-, hserved⟩ := h.core.engine.placeTag t rec p hrec ho
  refine ⟨fun hlost => False.elim ?_, fun e he => ⟨fun q job buf hgather => ?_, fun q job hgather => ?_⟩⟩
  · have hthere : s.place p ≠ none := fun hnone => by
      rcases hserved with ⟨job, hjob⟩ | hcancels
      · obtain ⟨e, he, -⟩ := h.core.table.gathering_entry p (.inr (.inr ⟨job, hjob⟩))
        rw [hnone] at he
        cases he
      · obtain ⟨e, he, -⟩ := (h.core.table.cancelled p).mpr hcancels
        rw [hnone] at he
        cases he
    rcases hlost with hnone | hne
    · exact hthere hnone
    · rcases hserved with ⟨job, hjob⟩ | ⟨job, hjob⟩
      · exact (hne p job).1 hjob
      · exact (hne p job).2 hjob
  · have hp : s.gather.gathers p := by
      rcases hserved with ⟨job', hjob'⟩ | ⟨job', hjob'⟩
      · exact .inr (.inr ⟨job', hjob'⟩)
      · rw [hgather] at hjob'
        cases hjob'
    obtain rfl := (Gather.gathers_iff_eq hp q).mp (.inr (.inr ⟨job, hgather⟩))
    have hmode := Gather.sameMode_reading q job (job.completedOne t o)
    refine ⟨State.DeferredCore.law ⟨h.core.table.congr (fun r => ?_) rfl ?_ ?_, ?_⟩ (by simp), fun hended faulted expiry =>
      ⟨h.core.table.gathered q e _ he hp rfl rfl rfl rfl rfl rfl (Entry.gathered_state _ _ _) rfl, ?_⟩⟩
    · exact s.keyed_setPlace q r e _ he rfl
    · rw [hgather]; exact hmode.gathers
    · rw [hgather]; exact hmode.cancels
    · exact h.core.engine.readCompletes t (by rw [hgather]; exact hmode) (by rw [hgather]; rfl) rfl rfl (by simp)
    · exact State.enginePart_of_quiet rfl (by simp [Gather.cancels]) (iff_of_false (by simp [Gather.servesPort])
        (h.core.engine.not_held (Gather.not_servesPort_of_gathers hp) (Gather.not_cancels_of_gathers hp)))
        (h.core.engine.no_tags_left t (by rw [hgather]; exact job.outstanding_of_ended t o hended))
  · obtain rfl : q = p := by
      rcases hserved with ⟨job', hjob'⟩ | ⟨job', hjob'⟩ <;> rw [hgather] at hjob' <;> cases hjob'
      rfl
    have hmode := Gather.sameMode_cancelWait q job (job.completedOne t o)
    refine ⟨fun hmore => State.DeferredCore.law ⟨h.core.table.congr (fun _ => rfl) rfl ?_ ?_, ?_⟩ (by simp),
      fun hlast => h.core.cancelEnds t q job hgather hlast⟩
    · rw [hgather]; exact hmode.gathers
    · rw [hgather]; exact hmode.cancels
    · refine h.core.engine.readCompletes t (by rw [hgather]; exact hmode) (by rw [hgather]; rfl) rfl rfl ?_
      intro r job' hjob'
      cases hjob'
      exact hmore

/-! ### Cancelling (R127) -/

/-- The GATHERING entry is cancelled while no read is outstanding (R127). -/
theorem State.DeferredCore.gatherDropped {s : State} (h : s.DeferredCore) (p : PlaceIdx) (hg : s.gather.gathers p)
    (hout : s.gather.outstanding = []) : State.DeferredCore { s.freePlace p with gather := .idle } where
  table := h.table.removed p rfl rfl
    (fun q => iff_of_false (by simp [Gather.gathers]) fun hq => hq.1 ((Gather.gathers_iff_eq hg q).mp hq.2))
    (fun q => iff_of_false (by simp [Gather.cancels]) fun hq => Gather.not_cancels_of_gathers hg q hq.2)
  engine := State.enginePart_of_quiet rfl (by simp [Gather.cancels]) (iff_of_false (by simp [Gather.servesPort])
    (h.engine.not_held (Gather.not_servesPort_of_gathers hg) (Gather.not_cancels_of_gathers hg))) (h.engine.no_tags hout)

/-- The GATHERING entry is cancelled while reads are outstanding (R127). -/
theorem State.DeferredCore.gatherCancelled {s : State} (h : s.DeferredCore) (p : PlaceIdx) (e : Entry) (job : ReadJob)
    (he : s.place p = some e) (hgather : s.gather = .reading p job) (hout : job.outstanding ≠ []) :
    State.DeferredCore { s.setPlace p (some { e with state := .cancelled }) with
      gather := .cancelWait p { job with unissued := [] } } := by
  have hg : s.gather.gathers p := .inr (.inr ⟨job, hgather⟩)
  have hgathering : e.state = .gathering := (State.entryIn_iff_of_place he _).mp ((h.table.gathering p).mpr hg)
  refine ⟨h.table.withPlace p _ rfl ?_, ?_⟩
  · exact {
      keys := fun d hd hne => by
        cases hd
        exact absurd rfl hne
      queuedOnce := h.table.queuedOnce
      queuedSelf := by
        refine (h.table.queuedList p).trans ?_
        rw [State.entryIn_iff_of_place he, hgathering]
        simp
      queuedOthers := fun _ _ => .rfl
      gathersSelf := by simp [Gather.gathers]
      gathersOthers := fun q hq => by
        rw [Gather.gathers_iff_eq hg]
        simp [Gather.gathers, hq]
      cancelsSelf := by simp [Gather.cancels]
      cancelsOthers := fun q hq => iff_of_false (by simp [Gather.cancels, Ne.symm hq])
        (Gather.not_cancels_of_gathers hg q)
      expiry := fun d hd => by
        cases hd
        have hexpiry := h.table.expiry p e he
        rw [hgathering] at hexpiry
        simpa using hexpiry }
  · refine h.engine.withReads (fun q hq => .inr ?_) (fun q hq => absurd hq (Gather.not_cancels_of_gathers hg q))
      (iff_of_false (by simp [Gather.servesPort]) (Gather.not_servesPort_of_gathers hg)) .rfl ?_ ?_ ?_ ?_ ?_
    · rcases hq with ⟨job', hjob'⟩ | hq
      · rw [hgather] at hjob'
        cases hjob'
        exact ⟨_, rfl⟩
      · exact absurd hq (Gather.not_cancels_of_gathers hg q)
    · rintro q job' hjob'
      cases hjob'
      exact hout
    · have := h.engine.readsOnce
      rwa [hgather] at this
    · have := h.engine.atMostFour
      rwa [hgather] at this
    · intro g r hr ho
      have := h.engine.mem_outstanding g r hr ho
      rw [hgather] at this
      exact ⟨this, .inl hr⟩
    · have := h.engine.readTag
      rwa [hgather] at this

theorem State.DeferredCore.cancelEntry {s : State} (h : s.DeferredCore) (p : PlaceIdx) : (s.cancelEntry p).DeferredCore := by
  unfold State.cancelEntry
  split
  · exact h
  · rename_i e he
    split
    · rename_i hstate
      exact h.freePlace p e he (by simp [hstate]) (by simp [hstate])
    · rename_i hstate
      exact h.freePlace p e he (by simp [hstate]) (by simp [hstate])
    · rename_i hstate
      exact h.freePlace p e he (by simp [hstate]) (by simp [hstate])
    · exact h
    · rename_i hstate
      have hg : s.gather.gathers p := (h.table.gathering p).mp ⟨e, he, hstate⟩
      split
      · rename_i q job hgather
        obtain rfl := (Gather.gathers_iff_eq hg q).mp (.inr (.inr ⟨job, hgather⟩))
        split
        · rename_i hnone
          exact h.gatherDropped q hg (by rw [hgather]; exact List.isEmpty_iff.mp hnone)
        · rename_i hsome
          exact h.gatherCancelled q e job he hgather fun hnone => hsome (List.isEmpty_iff.mpr hnone)
      · rename_i hgather
        exact h.gatherDropped p hg (by rw [hgather]; rfl)
      · rename_i hgather
        exact h.gatherDropped p hg (by rw [hgather]; rfl)
      · rename_i hgather
        exact h.gatherDropped p hg (by rw [hgather]; rfl)
      · rename_i q job hgather
        exact absurd ⟨job, hgather⟩ (Gather.not_cancels_of_gathers hg q)
      · rename_i job buffer hgather
        exact absurd ⟨job, buffer, hgather⟩ (Gather.not_servesPort_of_gathers hg)

theorem State.DeferredCore.cancelEntries {s : State} (h : s.DeferredCore) (which : Entry → Bool) :
    (s.cancelEntries which).DeferredCore := by
  unfold State.cancelEntries
  generalize List.finRange 4 = l
  induction l generalizing s with
  | nil => exact h
  | cons p l ih =>
    refine ih ?_
    dsimp only
    split
    · exact h
    · split
      · exact h.cancelEntry p
      · exact h

/-! ### Every block's operation -/

theorem State.keyed_markStale (s : State) (which : Entry → Bool) (p : PlaceIdx) :
    ((s.markStale which).place p).map Entry.keyed = (s.place p).map Entry.keyed := by
  have hplace : (s.markStale which).place p = (s.place p).map (fun e =>
      if e.state.markable && which e then { e with stale := true } else e) := by
    simp [State.place, State.markStale]
  rw [hplace, Option.map_map]
  refine congrFun (congrArg Option.map (funext fun e => ?_)) _
  simp only [Function.comp_apply]
  split <;> rfl

/-- The law of the deferred read table is one that every block's operation keeps, given the forward queue's law; an IDLE
engine can leave an entry QUEUED until it settles. -/
theorem deferredLaw_kept : BlockKept State.ForwardLaw State.DeferredLaw State.DeferredCore where
  same _ _ h hst := h.same hst.places hst.queuedOrder hst.gather hst.port (State.gatherTags_of_tags hst.tags)
  sameQ _ _ h hst := h.same hst.places hst.queuedOrder hst.gather hst.port (State.gatherTags_of_tags hst.tags)
  sameA _ _ h hst := h.same hst.forward hst.port hst.tags
  loose _ h := h.core
  powerOn _ := resetStateKeepsEveryLaw.deferred.same rfl rfl rfl rfl (State.gatherTags_of_tags rfl)
  settle _ causes h := h.settle causes
  closeFor s causes h := by
    obtain ⟨_, _, _, _, heq⟩ := s.closeFor_frame causes
    rw [heq]
    exact h.same rfl rfl rfl rfl (State.gatherTags_of_tags rfl)
  stale s which h := h.congr (s.keyed_markStale which) rfl rfl .rfl (State.gatherTags_of_tags rfl)
  staleQ s which h := h.congr (s.keyed_markStale which) rfl rfl .rfl (State.gatherTags_of_tags rfl)
  scatters s h := by
    obtain ⟨_, _, _, _, heq⟩ := s.scatterStep_frame
    rw [heq]
    exact h.same rfl rfl rfl rfl (State.gatherTags_of_tags rfl)
  accepts _ _ _ h _ _ := h.same rfl rfl rfl rfl (State.gatherTags_of_tags rfl)
  frees _ p e h he hstate := h.frees p e he hstate
  requeues _ p e ps h he hready := h.requeues p e ps he hready
  creates _ p r i ps h hkey hp := h.creates p r i ps hkey hp
  immediates _ r i h hidle hok := h.immediates r i hidle hok
  appendsWrite _ _ _ h _ _ _ := h.core.same rfl rfl rfl rfl (State.gatherTags_of_tags rfl)
  appendsRead s r _ h hidle _ _ := h.core.congr (fun _ => rfl) rfl rfl
    (iff_of_false (fun himmediate => not_holdsForward_of_holdsImmediate himmediate ⟨_, rfl, rfl⟩)
      (State.not_holdsImmediate_of_idle hidle)) (State.gatherTags_of_tags rfl)
  issuesRead s g _ _ _ h hg _ _ _ _ := h.same rfl rfl rfl rfl
    (State.gatherTags_setTag g _ rfl (by simp [Owner.ofGather]) (by simp [hg]))
  issuesWrite s g _ _ _ h hg _ _ _ _ := by
    have htags : ∀ {u : State} {line : Addr}, u.tags = s.tags.set g (some ⟨.forward, .write, line, .outstandingWrite⟩) →
        u.GatherTags s := fun hu => State.gatherTags_setTag g _ hu (by simp [Owner.ofGather]) (by simp [hg])
    exact ⟨h.same rfl rfl rfl rfl (htags rfl), h.core.same rfl rfl rfl rfl (htags rfl)⟩
  issuesCombine s g k h hg _ := by
    obtain ⟨o, heq⟩ := s.issueCombine_eq g k
    rw [heq]
    exact h.same rfl rfl rfl rfl (State.gatherTags_setTag g _ rfl (by simp [Owner.ofGather]) (by simp [hg]))
  issuesGather _ g line h hg ho := h.issuesGather g line hg ho
  headCompletes s t rec c hA h hrec ho ht := by
    have htags : ∀ {u : State}, u.tags = s.tags.set t none → u.GatherTags s := fun hu =>
      State.gatherTags_setTag t none hu (by simp) (by simp [hrec, ho, Owner.ofGather])
    refine ⟨fun _ => h.same rfl rfl rfl rfl (htags rfl), fun e rest hf => ⟨h.same rfl rfl rfl rfl (htags rfl), fun _ =>
      h.core.congr (fun _ => rfl) rfl rfl (iff_of_false (State.not_holdsImmediate_of_idle rfl) ?_) (htags rfl)⟩⟩
    have hforward : s.holdsForward := hA.heldRead.mp ⟨e, by rw [hf]; exact List.mem_cons_self,
      (hA.granted hf t rec hrec ho).1⟩
    exact fun himmediate => not_holdsForward_of_holdsImmediate himmediate hforward
  writeCompletes _ t rec h hrec ho := h.same rfl rfl rfl rfl
    (State.gatherTags_setTag t none rfl (by simp) (by simp [hrec, ho, Owner.ofGather]))
  slotFreed s t rec k h hrec ho := by
    have htags : State.GatherTags ((s.setTag t none).freeSlot k) s :=
      State.gatherTags_setTag t none rfl (by simp) (by simp [hrec, ho, Owner.ofGather])
    have hmode := s.gather.sameMode_dropSlot k
    refine State.DeferredCore.law ⟨h.core.table.congr (fun _ => rfl) rfl hmode.gathers hmode.cancels,
      h.core.engine.congr hmode (s.gather.outstanding_dropSlot k) .rfl htags⟩ fun hidle => h.idleTakes ?_
    cases hgather : s.gather <;> simp_all [State.freeSlot, Gather.dropSlot]
  slotMerged _ t rec _ _ h hrec ho _ := h.same rfl rfl rfl rfl
    (State.gatherTags_setTag t none rfl (by simp) (by simp [hrec, ho, Owner.ofGather]))
  slotReduced _ t rec _ h hrec ho _ := h.same rfl rfl rfl rfl
    (State.gatherTags_setTag t none rfl (by simp) (by simp [hrec, ho, Owner.ofGather]))
  notes s x h := by
    obtain ⟨f, heq⟩ := s.noteFault_frame x
    rw [heq]
    exact h.same rfl rfl rfl rfl (State.gatherTags_of_tags rfl)
  immediateCompletes _ t rec o h hrec ho := h.immediateCompletes t rec o hrec ho
  entryCompletes _ t rec o p h hrec ho := h.entryCompletes t rec o p hrec ho
  cancels _ which h := h.core.cancelEntries which
  fences s ps h _ := by
    obtain ⟨slots, heq⟩ := State.markSlots_frame s.busySlots { s with fence := ⟨.pending, some ps, false⟩ }
    rw [heq]
    exact h.same rfl rfl rfl rfl (State.gatherTags_of_tags rfl)
  reported _ h := h.same rfl rfl rfl rfl (State.gatherTags_of_tags rfl)

/-- Settles O12: each command keeps the table's and the engine's part, and an IDLE engine takes what is QUEUED as the
blocks settle. -/
theorem deferredLawKeptByEveryStep : Obligations.DeferredLawKeptByEveryStep := fun s t h hforward ht =>
  deferredLaw_kept.step s t hforward h ht

end Sys2Proof.Machine
end

section
/-! SUPPORT. The system port: decode (R42 to R45), the requests that change nothing (R43 to R55), and the handing over of
writes, claims and reads (R48, R52, R53, R110 to R115). -/

namespace Sys2Proof.Machine

/-! ### Decode -/

theorem malformed_eq_false (r : Request) : malformed r = false ↔ 1 ≤ r.beats ∧ r.beats ≤ 16 ∧
    r.address.toNat % 8 = 0 ∧ r.address.toNat % 0x1000 + 8 * r.beats ≤ 0x1000 := by
  simp [malformed]
  omega

theorem malformed_eq_true (r : Request) : malformed r = true ↔ r.beats < 1 ∨ 16 < r.beats ∨
    r.address.toNat % 8 ≠ 0 ∨ 0x1000 < r.address.toNat % 0x1000 + 8 * r.beats := by
  simp [malformed, or_assoc]

theorem State.decode_malformed (s : State) (r : Request) (hrun : s.partState = .run) (hbad : malformed r = true) :
    s.decode r = .malformed := by
  simp [State.decode, hrun, hbad]

/-- Step 3 of R42: a window holds every addressed byte. -/
theorem State.decode_inAperture (s : State) (r : Request) (i : ApertureIdx) (hrun : s.partState = .run)
    (hok : malformed r = false) (hi : (List.finRange 8).find? (s.windowHolds r) = some i) : s.decode r = .inAperture i := by
  simp [State.decode, hrun, hok, hi]

/-- Step 4 of R42: a window holds some addressed byte. -/
theorem State.decode_crossing (s : State) (r : Request) (i : ApertureIdx) (hrun : s.partState = .run)
    (hok : malformed r = false) (hnone : (List.finRange 8).find? (s.windowHolds r) = none)
    (hi : (List.finRange 8).find? (s.windowMeets r) = some i) : s.decode r = .crossing i := by
  simp [State.decode, hrun, hok, hnone, hi]

/-- Step 5 of R42: no window holds an addressed byte. -/
theorem State.decode_passThrough (s : State) (r : Request) (hrun : s.partState = .run) (hok : malformed r = false)
    (hholds : (List.finRange 8).find? (s.windowHolds r) = none)
    (hmeets : (List.finRange 8).find? (s.windowMeets r) = none) : s.decode r = .passThrough := by
  simp [State.decode, hrun, hok, hholds, hmeets]

theorem State.find_windowHolds_eq_none (s : State) (r : Request) (hbeats : 1 ≤ r.beats) :
    (List.finRange 8).find? (s.windowHolds r) = none ↔ ¬ ∃ i, ∀ b, Addresses r b → s.InWindow i b := by
  rw [find?_finRange_eq_none, not_exists]
  exact forall_congr' fun i => by rw [← Bool.not_eq_true, s.windowHolds_iff r i hbeats]

theorem State.find_windowMeets_eq_none (s : State) (r : Request) :
    (List.finRange 8).find? (s.windowMeets r) = none ↔ ¬ ∃ i b, Addresses r b ∧ s.InWindow i b := by
  rw [find?_finRange_eq_none, not_exists]
  exact forall_congr' fun i => by rw [← Bool.not_eq_true, s.windowMeets_iff r i]

/-- Settles O18: each step of R42 finds a window when there is one, and the step after it applies when there is none. -/
theorem decodeFollowsItsSteps : Obligations.DecodeFollowsItsSteps := by
  intro s r hrun hok
  have hbeats := ((malformed_eq_false r).mp hok).1
  refine ⟨fun hwhole => ?_, fun hnone hsome => ?_, fun hoff => ?_⟩
  · cases hfind : (List.finRange 8).find? (s.windowHolds r) with
    | none => exact absurd hwhole ((s.find_windowHolds_eq_none r hbeats).mp hfind)
    | some i =>
      exact ⟨i, s.decode_inAperture r i hrun hok hfind,
        (s.windowHolds_iff r i hbeats).mp ((find?_finRange_eq_some _ _).mp hfind).1⟩
  · have hholds := (s.find_windowHolds_eq_none r hbeats).mpr hnone
    cases hfind : (List.finRange 8).find? (s.windowMeets r) with
    | none => exact absurd hsome ((s.find_windowMeets_eq_none r).mp hfind)
    | some i =>
      exact ⟨i, s.decode_crossing r i hrun hok hholds hfind,
        (s.windowMeets_iff r i).mp ((find?_finRange_eq_some _ _).mp hfind).1⟩
  · refine s.decode_passThrough r hrun hok ((s.find_windowHolds_eq_none r hbeats).mpr ?_)
      ((s.find_windowMeets_eq_none r).mpr hoff)
    rintro ⟨i, hi⟩
    exact hoff ⟨i, r.address.toNat, ⟨Nat.le_refl _, by omega⟩, hi _ ⟨Nat.le_refl _, by omega⟩⟩

/-! ### REQUEST, by the class of its request -/

theorem exec_request_outsideRun (s : State) (r : Request) (hidle : s.port = .idle) (hrun : s.partState ≠ .run) :
    exec (.request r) s = .next (s.answer r.requester .retry) := by
  have hdecode : s.decode r = .outsideRun := by simp [State.decode, hrun]
  show execRequest r s = _
  rw [execRequest, hidle]
  dsimp only
  rw [hdecode]

theorem exec_request_malformed (s : State) (r : Request) (hidle : s.port = .idle) (h : s.decode r = .malformed) :
    exec (.request r) s = .next (s.decodeError r .shape none) := by
  show execRequest r s = _
  rw [execRequest, hidle]
  dsimp only
  rw [h]

theorem exec_request_inAperture (s : State) (r : Request) (i : ApertureIdx) (hidle : s.port = .idle)
    (h : s.decode r = .inAperture i) : exec (.request r) s = .next (s.apertureRequest r i) := by
  show execRequest r s = _
  rw [execRequest, hidle]
  dsimp only
  rw [h]

theorem exec_request_crossing (s : State) (r : Request) (i : ApertureIdx) (hidle : s.port = .idle)
    (h : s.decode r = .crossing i) : exec (.request r) s = .next (s.decodeError r .crossing (some i)) := by
  show execRequest r s = _
  rw [execRequest, hidle]
  dsimp only
  rw [h]

theorem exec_request_passThrough (s : State) (r : Request) (hidle : s.port = .idle) (h : s.decode r = .passThrough) :
    exec (.request r) s = .next (s.passThrough r) := by
  show execRequest r s = _
  rw [execRequest, hidle]
  dsimp only
  rw [h]

/-! ### Aperture requests, by the state of the aperture (R46, R47) -/

theorem State.apertureRequest_draining (s : State) (r : Request) (i : ApertureIdx)
    (h : (s.aperture i).state = .draining) : s.apertureRequest r i = s.answer r.requester .retry := by
  simp only [State.apertureRequest, h]

theorem State.apertureRequest_suspendedWrite (s : State) (r : Request) (i : ApertureIdx)
    (h : (s.aperture i).state = .suspended) (hk : r.kind = .write) :
    s.apertureRequest r i = s.answer r.requester .retry := by
  simp only [State.apertureRequest, h, hk]

theorem State.apertureRequest_suspendedRead (s : State) (r : Request) (i : ApertureIdx)
    (h : (s.aperture i).state = .suspended) (hk : r.kind = .read) : s.apertureRequest r i = s.suspendedRead r := by
  simp only [State.apertureRequest, h, hk]

theorem State.apertureRequest_denied (s : State) (r : Request) (i : ApertureIdx) (h : (s.aperture i).state = .active)
    (hk : ¬ (s.aperture i).fields.access.allows r.kind = true) :
    s.apertureRequest r i = s.decodeError r .access (some i) := by
  simp only [State.apertureRequest, h, if_neg hk]

theorem State.apertureRequest_read (s : State) (r : Request) (i : ApertureIdx) (h : (s.aperture i).state = .active)
    (ha : (s.aperture i).fields.access ≠ .writeOnly) (hk : r.kind = .read) :
    s.apertureRequest r i = s.apertureRead r i := by
  simp only [State.apertureRequest, h, hk, if_pos ((Access.allows_read _).mpr ha)]

theorem State.apertureRequest_write (s : State) (r : Request) (i : ApertureIdx) (h : (s.aperture i).state = .active)
    (ha : (s.aperture i).fields.access ≠ .readOnly) (hk : r.kind = .write) :
    s.apertureRequest r i = s.apertureWrite r i := by
  simp only [State.apertureRequest, h, hk, if_pos ((Access.allows_write _).mpr ha)]

/-! ### Pass-through requests (R51 to R54) -/

/-- The guard of a pass-through request (R52). -/
def State.guards (s : State) (r : Request) : Bool := (List.finRange 8).any (s.surfaceMeets r .ordered)

theorem State.guards_iff (s : State) (r : Request) :
    s.guards r = true ↔ ∃ j b, Addresses r b ∧ s.OnSurface .ordered j b := by
  simp [State.guards, List.any_eq_true, List.mem_finRange, State.surfaceMeets_iff]

theorem State.passThrough_denied (s : State) (r : Request) (i : ApertureIdx)
    (h : (List.finRange 8).find? (s.surfaceMeets r .denied) = some i) :
    s.passThrough r = s.decodeError r .denied (some i) := by
  simp only [State.passThrough, h]

theorem State.passThrough_nothingWritten (s : State) (r : Request)
    (h : (List.finRange 8).find? (s.surfaceMeets r .denied) = none) (hk : r.kind = .write) (hnone : noneEnabled r = true) :
    s.passThrough r = s.answer r.requester .accepted := by
  simp only [State.passThrough, h, hk, if_pos hnone]

theorem State.passThrough_full (s : State) (r : Request)
    (h : (List.finRange 8).find? (s.surfaceMeets r .denied) = none) (hk : r.kind = .read ∨ noneEnabled r = false)
    (hfull : 6 ≤ s.forward.length) : s.passThrough r = s.answer r.requester .retry := by
  simp only [State.passThrough, h]
  cases hkind : r.kind with
  | read => exact if_pos hfull
  | write =>
    have hsome : ¬ noneEnabled r = true := by
      rcases hk with hk | hk
      · rw [hkind] at hk
        cases hk
      · simp [hk]
    dsimp only
    rw [if_neg hsome]
    exact if_pos hfull

theorem State.passThrough_write (s : State) (r : Request)
    (h : (List.finRange 8).find? (s.surfaceMeets r .denied) = none) (hk : r.kind = .write) (hsome : noneEnabled r = false)
    (hroom : s.forward.length < 6) :
    s.passThrough r = (s.appendForward r (s.guards r)).answer r.requester .accepted := by
  have hne : ¬ noneEnabled r = true := by simp [hsome]
  have hfit : ¬ Config.forwardCapacity ≤ s.forward.length := Nat.not_le.mpr hroom
  simp only [State.passThrough, h, hk, if_neg hne, if_neg hfit]
  rfl

theorem State.passThrough_read (s : State) (r : Request)
    (h : (List.finRange 8).find? (s.surfaceMeets r .denied) = none) (hk : r.kind = .read) (hroom : s.forward.length < 6) :
    s.passThrough r = (s.hold r .passThrough).appendForward r (s.guards r) := by
  have hfit : ¬ Config.forwardCapacity ≤ s.forward.length := Nat.not_le.mpr hroom
  simp only [State.passThrough, h, hk, if_neg hfit]
  rfl

/-! ### The refusals (R44, R47, R50, R51, R55) -/

/-- A request that is not malformed addresses bytes of one 4 KiB block (R44). -/
theorem addresses_of_wellFormed (r : Request) (h : malformed r = false) (b : Nat) (hb : Addresses r b) :
    b / 0x1000 = r.address.toNat / 0x1000 ∧ b ≤ 0xFFFFFFFF := by
  obtain ⟨-, -, -, hblock⟩ := (malformed_eq_false r).mp h
  obtain ⟨hlow, hhigh⟩ := hb
  have := r.address.isLt
  omega

/-- Settles O19: the four refusals are the four places where decode and the access checks answer ERROR. -/
theorem refusedRequestsRaiseDecodeError : Obligations.RefusedRequestsRaiseDecodeError := by
  refine ⟨fun s r hidle hrun => ⟨fun hbad => ?_, fun hok => ?_⟩, fun s r i hidle => ⟨fun hin hactive haccess => ?_,
    fun hcross => exec_request_crossing s r i hidle hcross, fun hpass hmeets hfirst => ?_⟩⟩
  · exact exec_request_malformed s r hidle (s.decode_malformed r hrun ((malformed_eq_true r).mpr hbad))
  · have hwell : malformed r = false := Bool.eq_false_of_not_eq_true fun hbad => hok ((malformed_eq_true r).mp hbad)
    obtain ⟨hone, hmany, -, -⟩ := (malformed_eq_false r).mp hwell
    exact ⟨by omega, by omega, addresses_of_wellFormed r hwell⟩
  · rw [exec_request_inAperture s r i hidle hin, s.apertureRequest_denied r i hactive ?_]
    · rfl
    · rcases haccess with ⟨ha, hk⟩ | ⟨ha, hk⟩ <;> simp [ha, hk, Access.allows]
  · have hfind : (List.finRange 8).find? (s.surfaceMeets r .denied) = some i :=
      (find?_finRange_eq_some _ _).mpr ⟨(s.surfaceMeets_iff r .denied i).mpr hmeets, fun j hj => by
        rw [← Bool.not_eq_true, s.surfaceMeets_iff]
        exact hfirst j hj⟩
    rw [exec_request_passThrough s r hidle hpass, s.passThrough_denied r i hfind]
    rfl

/-! ### The requests that change nothing (R43, R46, R48, R53, R54) -/

/-- A read in a SUSPENDED window that claims no READY or FAILED entry (R46). -/
theorem State.suspendedRead_of_none (s : State) (r : Request)
    (h : ∀ p e, s.place p = some e → e.requester = r.requester → e.address = r.address → e.beats = r.beats →
      e.state ≠ .ready ∧ e.state ≠ .failed) : s.suspendedRead r = s.answer r.requester .retry := by
  unfold State.suspendedRead
  cases hkey : s.entryWith r.requester r.address r.beats with
  | none => rfl
  | some p =>
    obtain ⟨e, he, -, hrequester, haddress, hbeats⟩ := s.entryWith_eq_some _ _ _ p hkey
    obtain ⟨hready, hfailed⟩ := h p e he hrequester haddress hbeats
    simp [he, hready, hfailed]

/-- A read in a SUSPENDED window that claims a READY or FAILED entry (R46). -/
theorem State.suspendedRead_of_claim (s : State) (r : Request) (p : PlaceIdx) (e : Entry)
    (hkey : s.entryWith r.requester r.address r.beats = some p) (he : s.place p = some e)
    (hdone : e.state = .ready ∨ e.state = .failed) : s.suspendedRead r = s.claim r p e := by
  simp only [State.suspendedRead, hkey, he, if_pos hdone]

theorem State.apertureWrite_nothing (s : State) (r : Request) (i : ApertureIdx) (h : noneEnabled r = true) :
    s.apertureWrite r i = s.answer r.requester .accepted := if_pos h

theorem State.apertureWrite_full (s : State) (r : Request) (i : ApertureIdx) (h : noneEnabled r = false)
    (hfull : 8 ≤ s.intake.length) : s.apertureWrite r i = s.answer r.requester .retry := by
  unfold State.apertureWrite
  rw [if_neg (by simp [h])]
  exact if_pos hfull

theorem State.apertureWrite_room (s : State) (r : Request) (i : ApertureIdx) (h : noneEnabled r = false)
    (hroom : s.intake.length < 8) : s.apertureWrite r i = (s.acceptWrite r i).answer r.requester .accepted := by
  unfold State.apertureWrite
  rw [if_neg (by simp [h])]
  exact if_neg (Nat.not_le.mpr hroom)

/-- Settles O20: each of these requests ends in its own answer before any block is reached. -/
theorem requestsThatChangeNothing : Obligations.RequestsThatChangeNothing := by
  refine ⟨fun s r i hidle => ⟨exec_request_outsideRun s r hidle, fun hin => ?_, fun hpass hsurface hkind hfull => ?_⟩,
    fun s r i hidle hk hoff => ⟨fun hin hactive haccess => ?_, fun hpass hsurface => ?_⟩⟩
  · rw [exec_request_inAperture s r i hidle hin]
    refine ⟨fun hdraining => ?_, fun hsuspended hk => ?_, fun hsuspended hk hnone => ?_,
      fun hactive haccess hk hon hfull => ?_⟩
    · rw [s.apertureRequest_draining r i hdraining]
    · rw [s.apertureRequest_suspendedWrite r i hsuspended hk]
    · rw [s.apertureRequest_suspendedRead r i hsuspended hk, s.suspendedRead_of_none r hnone]
    · rw [s.apertureRequest_write r i hactive haccess hk,
        s.apertureWrite_full r i ((noneEnabled_eq_false r).mpr hon) hfull]
  · rw [exec_request_passThrough s r hidle hpass, s.passThrough_full r (s.find_surfaceMeets_eq_none r _ hsurface)
      (hkind.imp_right (noneEnabled_eq_false r).mpr) hfull]
  · rw [exec_request_inAperture s r i hidle hin, s.apertureRequest_write r i hactive haccess hk,
      s.apertureWrite_nothing r i ((noneEnabled_eq_true r).mpr hoff)]
  · rw [exec_request_passThrough s r hidle hpass, s.passThrough_nothingWritten r
      (s.find_surfaceMeets_eq_none r _ hsurface) hk ((noneEnabled_eq_true r).mpr hoff)]

/-! ### Acceptance into the intake (R48, R62, R68, R73) -/

/-- Stale marking, entry by entry (R73, R139). -/
theorem State.markStale_eq (s : State) (which marks : Entry → Bool)
    (h : ∀ e, (e.state.markable && which e) = marks e) : s.markStale which =
      { s with places := s.places.map (Option.map (fun e => if marks e then { e with stale := true } else e)) } := by
  have hplaces : Vector.ofFn (fun p : PlaceIdx => (s.place p).map (fun e =>
      if e.state.markable && which e then { e with stale := true } else e)) =
      s.places.map (Option.map (fun e => if marks e then { e with stale := true } else e)) := by
    ext1 p hp
    simp only [Vector.getElem_ofFn, Vector.getElem_map, h]
    rfl
  rw [State.markStale, hplaces]

theorem EntryState.markable_iff (st : EntryState) :
    st.markable = true ↔ st = .queued ∨ st = .gathering ∨ st = .ready := by
  cases st <;> simp [EntryState.markable]

theorem Entry.overlappedBy_iff (e : Entry) (r : Request) (i : ApertureIdx) : e.overlappedBy r i = true ↔
    e.aperture = i ∧ max e.address.toNat r.address.toNat <
      min (e.address.toNat + 8 * e.beats) (r.address.toNat + 8 * r.beats) := by
  simp [Entry.overlappedBy, rangesMeet, rangeEnd]

/-- The next enabled byte is the first from there on (R68). -/
theorem nextEnabled_eq_some (data : List WriteByte) (i j : Nat) (b : WriteByte) (hij : i ≤ j) (hj : data[j]? = some b)
    (hon : b.enabled = true) (hfirst : ∀ m < j, i ≤ m → ∀ d, data[m]? = some d → d.enabled = false) :
    nextEnabled data i = some j := by
  have hlt : j < data.length := (List.getElem?_eq_some_iff.mp hj).1
  rw [nextEnabled, List.find?_range_eq_some]
  refine ⟨by simp [hij, hj, hon], List.mem_range.mpr hlt, fun m hm => ?_⟩
  by_cases him : i ≤ m
  · have hm' : m < data.length := Nat.lt_trans hm hlt
    simp [him, List.getElem?_eq_getElem hm', hfirst m hm him _ (List.getElem?_eq_getElem hm')]
  · simp [him]

theorem nextEnabled_eq_none (data : List WriteByte) (i : Nat)
    (hoff : ∀ m, i ≤ m → ∀ d, data[m]? = some d → d.enabled = false) : nextEnabled data i = none := by
  rw [nextEnabled, List.find?_eq_none]
  intro m hm
  by_cases him : i ≤ m
  · have hm' := List.mem_range.mp hm
    simp [List.getElem?_eq_getElem hm', hoff m him _ (List.getElem?_eq_getElem hm')]
  · simp [him]

theorem firstCursor_eq_some (data : List WriteByte) (j : Nat) (b : WriteByte) (hj : data[j]? = some b)
    (hon : b.enabled = true) (hfirst : ∀ m < j, ∀ d, data[m]? = some d → d.enabled = false) :
    firstCursor data = some ⟨j, 0⟩ := by
  rw [firstCursor, nextEnabled_eq_some data 0 j b (Nat.zero_le j) hj hon fun m hm _ => hfirst m hm]
  rfl

/-- An accepted write marks stale what it overlaps in a STRICT aperture (R62, R73). -/
theorem State.acceptWrite_eq (s : State) (r : Request) (i : ApertureIdx) (marks : Entry → Bool)
    (hmarks : ∀ e, marks e = decide ((s.aperture i).fields.readOrdering = .strict ∧ e.aperture = i ∧
      (e.state = .queued ∨ e.state = .gathering ∨ e.state = .ready) ∧
      max e.address.toNat r.address.toNat < min (e.address.toNat + 8 * e.beats) (r.address.toNat + 8 * r.beats))) :
    s.acceptWrite r i = { s with
      intake := s.intake ++ [s.newRecord r i]
      acceptCount := s.acceptCount + 1
      scatter := if s.intake.isEmpty then ⟨.placing, firstCursor r.data⟩ else s.scatter
      places := s.places.map (Option.map (fun e => if marks e then { e with stale := true } else e)) } := by
  unfold State.acceptWrite
  dsimp only
  by_cases hstrict : (s.aperture i).fields.readOrdering = .strict
  · rw [if_pos hstrict]
    refine State.markStale_eq _ _ marks fun e => Bool.eq_iff_iff.mpr ?_
    rw [hmarks, Bool.and_eq_true, EntryState.markable_iff, Entry.overlappedBy_iff, decide_eq_true_eq]
    tauto
  · rw [if_neg hstrict]
    have hnone : (fun e => if marks e = true then { e with stale := true } else e) = id := funext fun e => by
      rw [if_neg]
      · rfl
      · simp [hmarks, hstrict]
    rw [hnone, Option.map_id, Vector.map_id]

/-- Settles O21: the write passes every check, and what `acceptWrite` leaves is the stated record, cursor and marks. -/
theorem apertureWriteJoinsTheIntake : Obligations.ApertureWriteJoinsTheIntake := by
  intro s r i j b hidle hin hactive haccess hk hroom hj hon hfirst
  dsimp only
  have hsome : noneEnabled r = false := (noneEnabled_eq_false r).mpr ⟨b, List.mem_of_getElem? hj, hon⟩
  rw [exec_request_inAperture s r i hidle hin, s.apertureRequest_write r i hactive haccess hk,
    s.apertureWrite_room r i hsome hroom, s.acceptWrite_eq r i _ fun _ => rfl, firstCursor_eq_some r.data j b hj hon hfirst]
  unfold State.newRecord
  simp only [List.isEmpty_iff]

/-! ### Pass-through requests with room (R40, R52, R53) -/

theorem State.newForward_eq (s : State) (r : Request) (prior : Option PriorSet)
    (hguarded : (∃ j b, Addresses r b ∧ s.OnSurface .ordered j b) → prior = some ⟨s.acceptCount, none⟩)
    (hfree : (¬ ∃ j b, Addresses r b ∧ s.OnSurface .ordered j b) → prior = none) :
    s.newForward r (s.guards r) = ⟨r.kind, r.requester, r.address, r.beats, r.data, prior, lineList r, [], .behind,
      ReadBuffer.blank⟩ := by
  unfold State.newForward
  by_cases h : s.guards r = true
  · rw [if_pos h, hguarded ((s.guards_iff r).mp h)]
    rfl
  · rw [if_neg h, hfree fun hex => h ((s.guards_iff r).mpr hex)]

/-- Settles O22: no surface denies the request, there is room, and the entry appended is the stated one. -/
theorem passThroughJoinsTheForwardQueue : Obligations.PassThroughJoinsTheForwardQueue := by
  intro s r hidle hpass hsurface hroom prior hguarded hfree
  have hnone := s.find_surfaceMeets_eq_none r _ hsurface
  have hentry := s.newForward_eq r prior hguarded hfree
  refine ⟨fun hk hon => ?_, fun hk => ?_⟩
  · rw [exec_request_passThrough s r hidle hpass,
      s.passThrough_write r hnone hk ((noneEnabled_eq_false r).mpr hon) hroom, State.appendForward, hentry]
  · rw [exec_request_passThrough s r hidle hpass, s.passThrough_read r hnone hk hroom, State.appendForward,
      show (s.hold r .passThrough).newForward r (s.guards r) = s.newForward r (s.guards r) from rfl, hentry]
    rfl

/-! ### Claims (R46, R111, R124) -/

theorem State.DeferredLaw.entryWith {s : State} (h : s.DeferredLaw) (p : PlaceIdx) (e : Entry) (he : s.place p = some e)
    (hlive : e.state ≠ .cancelled) : s.entryWith e.requester e.address e.beats = some p := by
  cases hkey : s.entryWith e.requester e.address e.beats with
  | none => exact absurd rfl ((s.entryWith_eq_none _ _ _).mp hkey p e he hlive rfl rfl)
  | some q =>
    obtain ⟨d, hd, hd', h1, h2, h3⟩ := s.entryWith_eq_some _ _ _ q hkey
    rw [h.keys q p d e hd he hd' hlive h1 h2 h3]

/-- Where a claim is taken (R46, R110). -/
theorem exec_request_claim (s : State) (r : Request) (i : ApertureIdx) (p : PlaceIdx) (e : Entry) (hidle : s.port = .idle)
    (hlaw : s.DeferredLaw) (hin : s.decode r = .inAperture i)
    (hwindow : ((s.aperture i).state = .active ∧ (s.aperture i).fields.access ≠ .writeOnly) ∨
      (s.aperture i).state = .suspended)
    (hk : r.kind = .read) (he : s.place p = some e) (hrequester : e.requester = r.requester)
    (haddress : e.address = r.address) (hbeats : e.beats = r.beats) (hlive : e.state ≠ .cancelled)
    (hdone : e.state = .ready ∨ e.state = .failed ∨ (s.aperture i).state = .active) :
    exec (.request r) s = .next (s.claim r p e) := by
  have hkey := hlaw.entryWith p e he hlive
  rw [hrequester, haddress, hbeats] at hkey
  rw [exec_request_inAperture s r i hidle hin]
  rcases hwindow with ⟨hactive, haccess⟩ | hsuspended
  · rw [s.apertureRequest_read r i hactive haccess hk]
    simp only [State.apertureRead, hkey, he]
  · have hclaim : e.state = .ready ∨ e.state = .failed := by
      rcases hdone with h | h | h
      · exact .inl h
      · exact .inr h
      · rw [hsuspended] at h
        cases h
    rw [s.apertureRequest_suspendedRead r i hsuspended hk, s.suspendedRead_of_claim r p e hkey he hclaim]

/-- A place that is not in the queued order leaves nothing else behind when it is freed. -/
theorem State.DeferredLaw.freePlace_eq {s : State} (h : s.DeferredLaw) (p : PlaceIdx) (e : Entry) (he : s.place p = some e)
    (hstate : e.state ≠ .queued) : s.freePlace p = s.setPlace p none := by
  have hout : p ∉ s.queuedOrder := fun hp => hstate ((State.entryIn_iff_of_place he _).mp ((h.queuedList p).mp hp))
  rw [State.freePlace, List.erase_of_not_mem hout]
  rfl

/-- Settles O24: the claim reaches the entry, since no two have the same key, and its state decides. -/
theorem claimsAreAnsweredByState : Obligations.ClaimsAreAnsweredByState := by
  intro s r i p e hidle hlaw hin hwindow hk he hrequester haddress hbeats
  have reaches := exec_request_claim s r i p e hidle hlaw hin hwindow hk he hrequester haddress hbeats
  refine ⟨fun hwaiting => ?_, fun hready hfresh => ?_, fun hfailed => ?_, fun hready hstale => ?_⟩
  · rcases hwindow with ⟨hactive, -⟩ | hsuspended
    · rw [reaches (by rcases hwaiting with h | h <;> simp [h]) (.inr (.inr hactive))]
      rcases hwaiting with h | h <;> simp only [State.claim, h]
    · rw [exec_request_inAperture s r i hidle hin, s.apertureRequest_suspendedRead r i hsuspended hk]
      have hlive : e.state ≠ .cancelled := by rcases hwaiting with h | h <;> simp [h]
      have hkey := hlaw.entryWith p e he hlive
      rw [hrequester, haddress, hbeats] at hkey
      have hneither : ¬ (e.state = .ready ∨ e.state = .failed) := by rcases hwaiting with h | h <;> simp [h]
      simp only [State.suspendedRead, hkey, he, if_neg hneither]
  · rw [reaches (by simp [hready]) (.inl hready)]
    simp only [State.claim, hready, hfresh, hlaw.freePlace_eq p e he (by simp [hready])]
    rfl
  · rw [reaches (by simp [hfailed]) (.inr (.inl hfailed))]
    simp only [State.claim, hfailed, hlaw.freePlace_eq p e he (by simp [hfailed])]
  · rw [reaches (by simp [hready]) (.inl hready)]
    simp only [State.claim, hready, hstale]
    rfl

/-! ### Reads without an entry (R110, R112 to R115) -/

theorem State.immediateOk_iff (s : State) (r : Request) (i : ApertureIdx) : s.immediateOk r i = true ↔
    (s.readFootprint r i).length ≤ 2 ∧ s.intake = [] ∧
      (∀ k, (s.slot k).state ≠ .free → (s.slot k).line ∉ s.readFootprint r i) ∧
      ∀ p e, s.place p = some e → e.state ≠ .queued ∧ e.state ≠ .gathering := by
  have hslots : (s.slotsHolding (s.readFootprint r i)).isEmpty = true ↔
      ∀ k, (s.slot k).state ≠ .free → (s.slot k).line ∉ s.readFootprint r i := by
    rw [List.isEmpty_iff, List.eq_nil_iff_forall_not_mem]
    exact forall_congr' fun k => by rw [s.mem_slotsHolding]; tauto
  have hstates : ∀ st : EntryState, (!st.defeatsImmediate) = true ↔ st ≠ .queued ∧ st ≠ .gathering := fun st => by
    cases st <;> simp [EntryState.defeatsImmediate]
  have hentries : (List.finRange 4).all (fun p => match s.place p with
      | none => true
      | some e => !e.state.defeatsImmediate) = true ↔
      ∀ p e, s.place p = some e → e.state ≠ .queued ∧ e.state ≠ .gathering := by
    rw [List.all_eq_true]
    constructor
    · intro h p e he
      have := h p (List.mem_finRange p)
      rw [he] at this
      exact (hstates e.state).mp this
    · intro h p _
      cases he : s.place p with
      | none => rfl
      | some e => exact (hstates e.state).mpr (h p e he)
  unfold State.immediateOk
  simp only [Bool.and_eq_true, decide_eq_true_eq]
  rw [hslots, List.isEmpty_iff, and_assoc, and_assoc]
  exact and_congr_right fun _ => and_congr_right fun _ => and_congr_right fun _ => hentries

theorem State.takeImmediate_eq (s : State) (lines : List Addr) : s.takeImmediate lines = { s with
    gather := if s.gather = .idle then .immediate (ReadJob.start lines) ReadBuffer.blank else s.gather } := by
  unfold State.takeImmediate
  split
  · rename_i h
    simp [h]
  all_goals
    rename_i h
    rw [if_neg (by simp [h])]

/-- Settles O25: with no entry of the key, the immediate conditions and then the lowest free place decide. -/
theorem readsWithoutAnEntryAreDecided : Obligations.ReadsWithoutAnEntryAreDecided := by
  intro s r i hidle hin hactive haccess hk hnew
  dsimp only
  have hkey : s.entryWith r.requester r.address r.beats = none :=
    (s.entryWith_eq_none _ _ _).mpr fun p e he hne h1 h2 => hnew p e he hne h1 h2
  have hok := s.immediateOk_iff r i
  rw [State.readFootprint] at hok
  rw [exec_request_inAperture s r i hidle hin, s.apertureRequest_read r i hactive haccess hk]
  simp only [State.apertureRead, hkey]
  refine ⟨fun himmediate => ?_, fun hnot p hp hlow => ?_, fun hnot hfull => ?_⟩
  · rw [if_pos (hok.mpr himmediate), State.takeImmediate_eq]
    rfl
  · rw [if_neg (mt hok.mp hnot), (s.firstFreePlace_eq_some p).mpr ⟨hp, hlow⟩]
    rfl
  · rw [if_neg (mt hok.mp hnot), s.firstFreePlace_eq_none.mpr hfull]
    rfl

end Sys2Proof.Machine
end

section
/-! SUPPORT. The line list of a pass-through request and the bytes of its line writes (R134). -/

namespace Sys2Proof.Machine

/-- The byte that a write gives for an address: that of its enabled byte there (R134). -/
theorem writeByteAt_eq_some (a : Addr) (data : List WriteByte) (x : Nat) (v : Byte) : writeByteAt a data x = some v ↔
    ∃ m d, data[m]? = some d ∧ d.enabled = true ∧ a.toNat + m = x ∧ d.value = v := by
  unfold writeByteAt
  constructor
  · intro h
    split at h
    · rename_i hle
      split at h
      · cases h
      · rename_i d hd
        split at h
        · rename_i hon
          exact ⟨_, d, hd, hon, Nat.add_sub_cancel' hle, Option.some.inj h⟩
        · cases h
    · cases h
  · rintro ⟨m, d, hd, hon, rfl, rfl⟩
    simp [hd, hon]

theorem writeByteAt_isSome (a : Addr) (data : List WriteByte) (x : Nat) : (writeByteAt a data x).isSome = true ↔
    ∃ m d, data[m]? = some d ∧ d.enabled = true ∧ a.toNat + m = x := by
  rw [Option.isSome_iff_exists]
  constructor
  · rintro ⟨v, hv⟩
    obtain ⟨m, d, hd, hon, hx, -⟩ := (writeByteAt_eq_some a data x v).mp hv
    exact ⟨m, d, hd, hon, hx⟩
  · rintro ⟨m, d, hd, hon, hx⟩
    exact ⟨d.value, (writeByteAt_eq_some a data x _).mpr ⟨m, d, hd, hon, hx, rfl⟩⟩

theorem writeMask_getLsbD (a : Addr) (data : List WriteByte) (line : Addr) (j : Nat) (hj : j < 64) :
    (writeMask a data line).getLsbD j = true ↔
      ∃ m d, data[m]? = some d ∧ d.enabled = true ∧ a.toNat + m = line.toNat + j := by
  rw [writeMask, bitsOf_getLsbD, decide_eq_true hj, Bool.true_and, writeByteAt_isSome]

theorem writeLine_byte (a : Addr) (data : List WriteByte) (line : Addr) (j : Nat) (hj : j < 64) :
    lineByte (writeLine a data line) j = (writeByteAt a data (line.toNat + j)).getD 0#8 := by
  rw [writeLine, lineByte_lineOf _ j hj]

/-- A line write has a line for every line that holds an enabled byte (R134). -/
theorem writeMask_ne_zero (a : Addr) (data : List WriteByte) (line : Addr) (hline : line.toNat % 64 = 0) :
    writeMask a data line ≠ 0#64 ↔
      ∃ m d, data[m]? = some d ∧ d.enabled = true ∧ (a.toNat + m) / 64 * 64 = line.toNat := by
  constructor
  · intro hne
    obtain ⟨j, hj, hbit⟩ : ∃ j < 64, (writeMask a data line).getLsbD j = true := by
      by_contra hnone
      push Not at hnone
      exact hne (BitVec.eq_of_getLsbD_eq fun j hj => by simpa using hnone j hj)
    obtain ⟨m, d, hd, hon, hm⟩ := (writeMask_getLsbD a data line j hj).mp hbit
    exact ⟨m, d, hd, hon, by omega⟩
  · rintro ⟨m, d, hd, hon, hm⟩ hzero
    have hbit := (writeMask_getLsbD a data line ((a.toNat + m) % 64) (Nat.mod_lt _ (by decide))).mpr
      ⟨m, d, hd, hon, by omega⟩
    rw [hzero] at hbit
    simp at hbit

/-- How many lines a range of beats touches (R134). -/
def lineCount (a : Addr) (beats : Nat) : Nat := (rangeEnd a beats + 63) / 64 - a.toNat / 64

/-- The lines of a range that ends inside the address space do not wrap. -/
theorem linesOfRange_toNat (a : Addr) (beats : Nat) (h : a.toNat + 8 * beats ≤ 2 ^ 32) :
    (linesOfRange a beats).map (·.toNat) = (List.range (lineCount a beats)).map (fun j => (a.toNat / 64 + j) * 64) := by
  rw [linesOfRange, List.map_map]
  refine List.map_congr_left fun j hj => ?_
  have hlt := List.mem_range.mp hj
  simp only [rangeEnd] at hlt
  simp only [Function.comp_apply, BitVec.toNat_ofNat]
  exact Nat.mod_eq_of_lt (by omega)

theorem mem_linesOfRange (a : Addr) (beats : Nat) (h : a.toNat + 8 * beats ≤ 2 ^ 32) (l : Addr) :
    l ∈ linesOfRange a beats ↔ ∃ j < lineCount a beats, l.toNat = (a.toNat / 64 + j) * 64 := by
  rw [← List.mem_map_of_injective (f := (·.toNat)) (fun _ _ => BitVec.eq_of_toNat_eq), linesOfRange_toNat a beats h]
  simp [eq_comm]

/-- A line is touched when it holds an addressed byte (R134). -/
theorem mem_linesOfRange_iff (r : Request) (hbeats : 1 ≤ r.beats) (h : r.address.toNat + 8 * r.beats ≤ 2 ^ 32)
    (l : Addr) :
    l ∈ linesOfRange r.address r.beats ↔ ∃ b, Addresses r b ∧ b / 64 * 64 = l.toNat := by
  rw [mem_linesOfRange r.address r.beats h]
  unfold Addresses lineCount rangeEnd
  constructor
  · rintro ⟨j, hj, hl⟩
    exact ⟨max r.address.toNat l.toNat, by omega⟩
  · rintro ⟨b, ⟨hlow, hhigh⟩, hb⟩
    exact ⟨b / 64 - r.address.toNat / 64, by omega⟩

/-- The lines a request goes out on (R134). -/
def usesLine (r : Request) (l : Addr) : Prop := r.kind = .read ∨ writeMask r.address r.data l ≠ 0#64

theorem mem_lineList (r : Request) (l : ForwardLine) : l ∈ lineList r ↔
    l.mark = .unissued ∧ l.line ∈ linesOfRange r.address r.beats ∧ usesLine r l.line := by
  unfold lineList usesLine
  obtain ⟨line, mark⟩ := l
  cases hk : r.kind <;> simp <;> tauto

theorem lineList_sublist (r : Request) :
    ((lineList r).map (·.line.toNat)).Sublist ((linesOfRange r.address r.beats).map (·.toNat)) := by
  rw [lineList, List.map_map]
  exact List.Sublist.map _ List.filter_sublist

/-- Settles O23: the lines are those of the range in order, filtered by the bytes that are enabled. -/
theorem lineListsFollowTheBytes : Obligations.LineListsFollowTheBytes := by
  intro r hwell hdata
  obtain ⟨hbeats, -, -, hblock⟩ := (malformed_eq_false r).mp hwell
  have hfits : r.address.toNat + 8 * r.beats ≤ 2 ^ 32 := by
    have := r.address.isLt
    omega
  refine ⟨?_, fun l hl => ?_, fun a => ?_, fun a j ha hj => ⟨writeMask_getLsbD _ _ a j hj, fun hoff => ?_,
    fun m d hd hon hm => ?_⟩⟩
  · refine List.Pairwise.sublist (lineList_sublist r) ?_
    rw [linesOfRange_toNat r.address r.beats hfits, List.pairwise_map]
    exact List.pairwise_lt_range.imp fun {i j} hij => by omega
  · obtain ⟨hmark, hline, -⟩ := (mem_lineList r l).mp hl
    obtain ⟨j, -, hj⟩ := (mem_linesOfRange _ _ hfits _).mp hline
    exact ⟨hmark, by omega⟩
  · have hlines := mem_linesOfRange_iff r hbeats hfits a
    have hmem : (∃ l ∈ lineList r, l.line = a) ↔ a ∈ linesOfRange r.address r.beats ∧ usesLine r a := by
      constructor
      · rintro ⟨l, hl, rfl⟩
        exact ((mem_lineList r l).mp hl).2
      · exact fun h => ⟨⟨a, .unissued⟩, (mem_lineList r _).mpr ⟨rfl, h⟩, rfl⟩
    rw [hmem, usesLine]
    cases hk : r.kind with
    | read =>
      simp only [true_or, and_true, true_and, reduceCtorEq, false_and, or_false]
      rw [hlines]
      exact ⟨fun ⟨b, hb, hba⟩ => ⟨by omega, b, hb, hba⟩, And.right⟩
    | write =>
      simp only [reduceCtorEq, false_or, false_and, true_and]
      constructor
      · rintro ⟨hline, hmask⟩
        obtain ⟨b, -, hb⟩ := hlines.mp hline
        have ha : a.toNat % 64 = 0 := by omega
        exact ⟨ha, (writeMask_ne_zero _ _ a ha).mp hmask⟩
      · rintro ⟨ha, hex⟩
        refine ⟨hlines.mpr ?_, (writeMask_ne_zero _ _ a ha).mpr hex⟩
        obtain ⟨m, d, hd, -, hm⟩ := hex
        have hlt := (List.getElem?_eq_some_iff.mp hd).1
        rw [hdata hk] at hlt
        exact ⟨r.address.toNat + m, ⟨by omega, by omega⟩, hm⟩
  · have hnone : writeByteAt r.address r.data (a.toNat + j) = none := by
      rw [← Option.not_isSome_iff_eq_none, writeByteAt_isSome, ← writeMask_getLsbD _ _ a j hj, hoff]
      simp
    rw [writeLine_byte _ _ a j hj, hnone]
    rfl
  · rw [writeLine_byte _ _ a j hj, (writeByteAt_eq_some _ _ _ _).mpr ⟨m, d, hd, hon, hm, rfl⟩]
    rfl

end Sys2Proof.Machine
end

section
/-! SUPPORT. The passage of time (R85, R125, R126) and cancelling entries (R127), in the words of the statements. -/

namespace Sys2Proof.Machine

/-! ### Closing for one reason -/

theorem reasonFor_age (l : List SlotIdx) (k : SlotIdx) (h : k ∈ l) : reasonFor [⟨.age, l⟩] k = some .age := by
  simp [reasonFor, reasonOrder, namedFor, h]

theorem reasonFor_age_of_not_mem (l : List SlotIdx) (k : SlotIdx) (h : k ∉ l) : reasonFor [⟨.age, l⟩] k = none := by
  simp [reasonFor, reasonOrder, namedFor, h]

/-- An OPEN slot that the causes name begins its flush (R87, R89). -/
theorem State.SlotLaw.closes {s : State} (h : s.SlotLaw) (causes : List Cause) (k : SlotIdx) (r : FlushReason)
    (hopen : k ∈ s.openOrder) (hr : reasonFor causes k = some r) :
    (s.closeFor causes).slot k = (s.slot k).closed r (s.fenceCatches k) ∧ k ∈ (s.closeFor causes).flushOrder ∧
      k ∉ (s.closeFor causes).openOrder := by
  obtain ⟨hslot, heq⟩ := s.closeFor_exact causes h
  have hnamed := reasonFor_isSome causes k
  rw [hr, Option.isSome_some] at hnamed
  refine ⟨hslot k r hopen hr, ?_, ?_⟩
  · rw [heq]
    exact List.mem_append_right _ (List.mem_filter.mpr ⟨hopen, hnamed.symm⟩)
  · rw [heq]
    intro hk
    have hunnamed := (List.mem_filter.mp hk).2
    dsimp only at hunnamed
    rw [← hnamed] at hunnamed
    cases hunnamed

/-! ### The passage of time, part by part -/

/-- The slots whose deadline is at or before a time have closed (R85). -/
def State.agedAt (s : State) (n : Nat) : State :=
  ({ s with now := n } : State).closeFor [⟨.age, ({ s with now := n } : State).agedBy n⟩]

theorem State.agedAt_frame (s : State) (n : Nat) : ∃ slots opens flushes, ∃ touched : IntakeRecord → List SlotIdx,
    s.agedAt n = { s with
      now := n, slots := slots, openOrder := opens, flushOrder := flushes
      intake := s.intake.map (fun r => { r with touched := touched r }) } :=
  State.closeFor_frame { s with now := n } _

/-- The entries whose expiry time is at or before a time have gone (R126). -/
def State.discardedAt (s : State) (n : Nat) : State := ((s.agedAt n).expiredBy n).foldl State.discardEntry (s.agedAt n)

theorem State.passTime_eq (s : State) (n : Nat) : s.passTime n = (s.discardedAt n).drainTests := rfl

theorem State.discardedAt_frame (s : State) (n : Nat) :
    ∃ places order ev, s.discardedAt n = { s.agedAt n with places := places, queuedOrder := order, events := ev } :=
  State.foldl_discardEntry_frame _ _

theorem State.passTime_of_discardedAt (s : State) (n : Nat) :
    ∃ a, s.passTime n = { s.discardedAt n with apertures := a } := (s.discardedAt n).drainTests_frame

theorem State.agedAt_place (s : State) (n : Nat) (p : PlaceIdx) : (s.agedAt n).place p = s.place p := by
  obtain ⟨_, _, _, _, heq⟩ := s.agedAt_frame n
  rw [heq]
  rfl

theorem State.passTime_slots (s : State) (n : Nat) : (s.passTime n).slots = (s.agedAt n).slots ∧
    (s.passTime n).openOrder = (s.agedAt n).openOrder ∧ (s.passTime n).flushOrder = (s.agedAt n).flushOrder ∧
    (s.passTime n).intake = (s.agedAt n).intake ∧ (s.passTime n).port = s.port := by
  obtain ⟨a, h⟩ := s.passTime_of_discardedAt n
  obtain ⟨_, _, _, h'⟩ := s.discardedAt_frame n
  obtain ⟨_, _, _, _, h''⟩ := s.agedAt_frame n
  rw [h, h', h'']
  exact ⟨rfl, rfl, rfl, rfl, rfl⟩

/-- The places that a passage of time to `n` empties (R126). -/
theorem State.mem_expiredBy_agedAt (s : State) (n : Nat) (p : PlaceIdx) :
    p ∈ (s.agedAt n).expiredBy n ↔ ∃ e, s.place p = some e ∧ ∃ y, e.expiry = some y ∧ y ≤ n := by
  rw [State.mem_expiredBy, State.agedAt_place]
  simp

theorem State.passTime_place (s : State) (n : Nat) (p : PlaceIdx) :
    (s.passTime n).place p = if p ∈ (s.agedAt n).expiredBy n then none else s.place p := by
  obtain ⟨a, h⟩ := s.passTime_of_discardedAt n
  rw [h, show ({ s.discardedAt n with apertures := a } : State).place p = (s.discardedAt n).place p from rfl,
    State.discardedAt, State.foldl_discardEntry_place, State.agedAt_place]

/-- DISCARD is raised for each entry that goes, in increasing place order (R126). -/
theorem State.passTime_events (s : State) (n : Nat) :
    (s.passTime n).events = ((s.agedAt n).expiredBy n).foldl s.discardRaise s.events := by
  obtain ⟨a, h⟩ := s.passTime_of_discardedAt n
  have hraise : (s.agedAt n).discardRaise = s.discardRaise := by
    funext ev p
    simp only [State.discardRaise, State.agedAt_place]
  have hevents : (s.agedAt n).events = s.events := by
    obtain ⟨_, _, _, _, heq⟩ := s.agedAt_frame n
    rw [heq]
  have hnodup : ((s.agedAt n).expiredBy n).Nodup :=
    ((s.agedAt n).expiredBy_increasing n).imp fun hlt => Fin.ne_of_lt hlt
  rw [h, show ({ s.discardedAt n with apertures := a } : State).events = (s.discardedAt n).events from rfl,
    State.discardedAt, State.foldl_discardEntry_events _ _ hnodup, hraise, hevents]

theorem State.discardRaise_of_place (s : State) (ev : EventUnit) (p : PlaceIdx) (e : Entry) (h : s.place p = some e) :
    s.discardRaise ev p = ev.raise .discard (some e.aperture) e.address (some e.requester) := by
  simp only [State.discardRaise, h]

/-- The last of the places that go decides the last-fault record (R126, R174). -/
theorem foldl_discardRaise_lastFault (s : State) (l : List PlaceIdx) (ev : EventUnit) (hl : l.Pairwise (· < ·))
    (p : PlaceIdx) (e : Entry) (hp : p ∈ l) (hlast : ∀ q ∈ l, q ≤ p) (he : s.place p = some e) :
    (l.foldl s.discardRaise ev).lastFault = some ⟨.discard, some e.aperture, e.address, some e.requester⟩ := by
  obtain ⟨init, rest, rfl⟩ := List.append_of_mem hp
  have hnone : rest = [] := List.eq_nil_iff_forall_not_mem.mpr fun q hq => by
    have hlt := (List.pairwise_cons.mp (List.pairwise_append.mp hl).2.1).1 q hq
    have hle := hlast q (List.mem_append_right _ (List.mem_cons_of_mem _ hq))
    exact absurd hlt (not_lt.mpr hle)
  rw [hnone, List.foldl_append, List.foldl_cons, List.foldl_nil, s.discardRaise_of_place _ p e he,
    EventUnit.raise_lastFault]
  rfl

/-- A drain ends when its condition holds of what is left (R19). -/
theorem State.passTime_aperture (s : State) (n : Nat) (i : ApertureIdx) :
    (s.passTime n).aperture i = if (s.discardedAt n).drained i = true then Aperture.cleared else s.aperture i := by
  obtain ⟨_, _, _, h⟩ := s.discardedAt_frame n
  obtain ⟨_, _, _, _, h'⟩ := s.agedAt_frame n
  rw [s.passTime_eq, State.drainTests_aperture, show (s.discardedAt n).aperture i = s.aperture i by rw [h, h']; rfl]

theorem State.discardedAt_drained (s : State) (n : Nat) (i : ApertureIdx) : (s.discardedAt n).drained i = true ↔
    (s.aperture i).state = .draining ∧
      (∀ ps, (s.aperture i).drain = some ps → ∀ r ∈ (s.passTime n).intake, ps.holds r = false) ∧
      (∀ k, ((s.passTime n).slot k).state ≠ .free → ((s.passTime n).slot k).aperture ≠ i) ∧
      (∀ p e, (s.passTime n).place p = some e → e.aperture ≠ i) ∧
      ∀ h, (s.passTime n).port = .holding h → h.service ≠ .immediate i := by
  have haperture : (s.discardedAt n).aperture i = s.aperture i := by
    obtain ⟨_, _, _, h⟩ := s.discardedAt_frame n
    obtain ⟨_, _, _, _, h'⟩ := s.agedAt_frame n
    rw [h, h']
    rfl
  obtain ⟨a, hpass⟩ := s.passTime_of_discardedAt n
  rw [State.drained_iff, haperture, hpass]
  rfl

/-- An entry that goes is READY or FAILED, and so in no queued order (R106, R109). -/
theorem State.discardEntry_queuedOrder (s : State) (p : PlaceIdx) (h : p ∉ s.queuedOrder) :
    (s.discardEntry p).queuedOrder = s.queuedOrder := by
  unfold State.discardEntry
  split
  · rfl
  · exact List.erase_of_not_mem h

theorem State.foldl_discardEntry_queuedOrder (l : List PlaceIdx) (s : State) (h : ∀ p ∈ l, p ∉ s.queuedOrder) :
    (l.foldl State.discardEntry s).queuedOrder = s.queuedOrder := by
  induction l generalizing s with
  | nil => rfl
  | cons p l ih =>
    have hfirst := s.discardEntry_queuedOrder p (h p List.mem_cons_self)
    rw [List.foldl_cons, ih _ fun q hq => by rw [hfirst]; exact h q (List.mem_cons_of_mem _ hq), hfirst]

theorem State.DeferredLaw.passTime_queuedOrder {s : State} (h : s.DeferredLaw) (n : Nat) :
    (s.passTime n).queuedOrder = s.queuedOrder := by
  obtain ⟨a, hpass⟩ := s.passTime_of_discardedAt n
  have haged : (s.agedAt n).queuedOrder = s.queuedOrder := by
    obtain ⟨_, _, _, _, heq⟩ := s.agedAt_frame n
    rw [heq]
  rw [hpass, show ({ s.discardedAt n with apertures := a } : State).queuedOrder = (s.discardedAt n).queuedOrder from rfl,
    State.discardedAt, State.foldl_discardEntry_queuedOrder, haged]
  intro p hp hqueued
  obtain ⟨e, he, y, hy, -⟩ := (s.mem_expiredBy_agedAt n p).mp hp
  rw [haged, h.queuedList, State.entryIn_iff_of_place he] at hqueued
  have hdone := (h.expiry p e he).mp (by simp [hy])
  rw [hqueued] at hdone
  simp at hdone

/-- The slots whose deadline is reached (R85). -/
theorem State.SlotLaw.mem_agedBy_iff {s : State} (h : s.SlotLaw) (n : Nat) (k : SlotIdx) :
    k ∈ ({ s with now := n } : State).agedBy n ↔
      s.timing.ageLimit ≠ 0 ∧ (s.slot k).state = .opened ∧ (s.slot k).openTime + s.timing.ageLimit ≤ n := by
  rw [State.mem_agedBy, show k ∈ ({ s with now := n } : State).openOrder ↔ (s.slot k).state = .opened from h.openList k]
  exact and_left_comm

theorem State.SlotLaw.withNow {s : State} (h : s.SlotLaw) (n : Nat) : State.SlotLaw { s with now := n } :=
  h.same rfl rfl rfl rfl (State.slotTags_of_tags rfl _)

/-- What becomes of a slot whose deadline is reached, and that others stay (R85). -/
theorem State.SlotLaw.passTime_slot {s : State} (h : s.SlotLaw) (n : Nat) (k : SlotIdx) :
    (k ∈ ({ s with now := n } : State).agedBy n → ((s.passTime n).slot k).state.flushing ∧
      ((s.passTime n).slot k).reason = .age ∧ k ∈ (s.passTime n).flushOrder ∧ k ∉ (s.passTime n).openOrder) ∧
    (k ∉ ({ s with now := n } : State).agedBy n → (s.passTime n).slot k = s.slot k) := by
  obtain ⟨hslots, hopen, hflush, -, -⟩ := s.passTime_slots n
  have hslot : (s.passTime n).slot k = (s.agedAt n).slot k := State.slot_congr _ _ hslots k
  rw [hopen, hflush, hslot]
  constructor
  · intro hk
    obtain ⟨hclosed, hin, hout⟩ := (h.withNow n).closes _ k .age ((State.mem_agedBy _ _ _).mp hk).1 (reasonFor_age _ k hk)
    rw [State.agedAt, hclosed]
    exact ⟨Slot.closed_flushing _ _ _, rfl, hin, hout⟩
  · exact fun hk => State.closeFor_slot_of_not_named _ _ k (.inr (reasonFor_age_of_not_mem _ k hk))

/-- The touched-slot lists keep the slots that are still OPEN (R71). -/
theorem State.SlotLaw.passTime_intake {s : State} (h : s.SlotLaw) (n : Nat) :
    (s.passTime n).intake = s.intake.map (fun r =>
      { r with touched := r.touched.filter (fun k => ((s.passTime n).slot k).state == SlotState.opened) }) := by
  obtain ⟨-, -, -, hintake, -⟩ := s.passTime_slots n
  have hexact := congrArg State.intake (({ s with now := n } : State).closeFor_exact
    [⟨.age, ({ s with now := n } : State).agedBy n⟩] (h.withNow n)).2
  rw [hintake]
  refine Eq.trans hexact (List.map_congr_left fun r hr => ?_)
  refine congrArg (fun ks => ({ r with touched := ks } : IntakeRecord)) (List.filter_congr fun k hk => ?_)
  have hstate := (h.touched r hr).2 k hk
  obtain ⟨haged, hstays⟩ := h.passTime_slot n k
  by_cases hmem : k ∈ ({ s with now := n } : State).agedBy n
  · have hclosed : (((s.passTime n).slot k).state == SlotState.opened) = false :=
      beq_eq_false_iff_ne.mpr (SlotState.flushing_ne_opened (haged hmem).1)
    rw [hclosed]
    simp [hmem]
  · simp [hmem, hstays hmem, hstate]

theorem State.expiredBy_agedAt (s : State) (n : Nat) : (s.agedAt n).expiredBy n = s.expiredBy n := by
  simp only [State.expiredBy, State.expiryOf, State.agedAt_place]

theorem foldl_discardRaise_filter (s : State) (n : Nat) (ev : EventUnit) (l : List PlaceIdx) :
    (l.filter (fun q => match s.expiryOf q with | none => false | some y => decide (y ≤ n))).foldl s.discardRaise ev =
      l.foldl (fun ev q => match s.place q with
        | none => ev
        | some d => match d.expiry with
          | none => ev
          | some y => if y ≤ n then ev.raise .discard (some d.aperture) d.address (some d.requester) else ev) ev := by
  rw [List.foldl_filter]
  refine congrArg (fun f => List.foldl f ev l) (funext fun ev => funext fun q => ?_)
  unfold State.expiryOf State.discardRaise
  cases s.place q with
  | none => simp
  | some d => cases hd : d.expiry <;> simp [hd]

/-! ### O26 -/

theorem exec_discardExpiry (s : State) (p : PlaceIdx) (e : Entry) (x : Nat) (he : s.place p = some e)
    (hx : e.expiry = some x) : exec (.discardExpiry p) s = .next (s.passTime (max s.now x)) := by
  have hexpiry : s.expiryOf p = some x := by simp [State.expiryOf, he, hx]
  show execDiscardExpiry p s = _
  rw [execDiscardExpiry, hexpiry]

theorem exec_ageExpiry (s : State) (k : SlotIdx) (hopen : (s.slot k).state = .opened) (hlimit : s.timing.ageLimit ≠ 0) :
    exec (.ageExpiry k) s = .next (s.passTime (max s.now ((s.slot k).openTime + s.timing.ageLimit))) := by
  have hdeadline : s.ageDeadline (s.slot k) = some ((s.slot k).openTime + s.timing.ageLimit) := if_neg hlimit
  show execAgeExpiry k s = _
  rw [execAgeExpiry, hopen, hdeadline]

theorem State.passTime_now (s : State) (n : Nat) : (s.passTime n).now = n := by
  obtain ⟨_, _, _, _, _, _, _, _, heq⟩ := s.passTime_frame n
  rw [heq]

/-- Settles O26: both expiries are a passage of time, and each part of what it leaves is one of the lemmas above. -/
theorem expiriesFreeEntriesAndCloseSlots : Obligations.ExpiriesFreeEntriesAndCloseSlots := by
  intro s
  dsimp only
  refine ⟨fun p e x he hx => ⟨_, exec_discardExpiry s p e x he hx, ?_⟩, fun k hopen hlimit =>
    ⟨_, exec_ageExpiry s k hopen hlimit, ?_⟩⟩
  all_goals
    generalize hn : max s.now _ = n
    have hnow := s.passTime_now n
    have hexpired := fun q => s.mem_expiredBy_agedAt n q
    rw [hnow]
    refine ⟨rfl, fun q => ⟨fun hq => ?_, fun hq => ?_⟩, ?_, fun q d hq honly => ?_, fun q d hq hhigh => ?_,
      fun hslots j => ⟨fun hj => ?_, fun hj => ?_⟩, fun i => ⟨fun hi => ?_, fun hi => ?_⟩,
      fun hslots => hslots.passTime_intake n, fun hdeferred => hdeferred.passTime_queuedOrder n, ?_⟩
    · rw [s.passTime_place, if_pos ((hexpired q).mpr hq)]
    · rw [s.passTime_place, if_neg fun hmem => hq ((hexpired q).mp hmem)]
    · rw [s.passTime_events, s.expiredBy_agedAt]
      exact foldl_discardRaise_filter s n s.events _
    · have hone : (s.agedAt n).expiredBy n = [q] := by
        have hnodup : ((s.agedAt n).expiredBy n).Nodup :=
          ((s.agedAt n).expiredBy_increasing n).imp fun hlt => Fin.ne_of_lt hlt
        exact List.perm_singleton.mp ((List.perm_ext_iff_of_nodup hnodup (List.nodup_singleton q)).mpr fun r => by
          rw [hexpired, List.mem_singleton]
          exact ⟨fun ⟨e', he'⟩ => honly r e' he', fun hr => ⟨d, hr ▸ hq⟩⟩)
      rw [s.passTime_events, hone, List.foldl_cons, List.foldl_nil, s.discardRaise_of_place _ q d hq.1]
    · rw [s.passTime_events]
      refine foldl_discardRaise_lastFault s _ _ ((s.agedAt n).expiredBy_increasing n) q d ((hexpired q).mpr ⟨d, hq⟩)
        (fun r hr => ?_) hq.1
      obtain ⟨e', he'⟩ := (hexpired r).mp hr
      exact hhigh r e' he'
    · exact (hslots.passTime_slot n j).1 ((hslots.mem_agedBy_iff n j).mpr hj)
    · exact (hslots.passTime_slot n j).2 fun hmem => hj ((hslots.mem_agedBy_iff n j).mp hmem)
    · rw [s.passTime_aperture, if_pos ((s.discardedAt_drained n i).mpr hi)]
    · rw [s.passTime_aperture, if_neg fun h => hi ((s.discardedAt_drained n i).mp h)]
    · obtain ⟨_, _, _, _, _, _, _, _, heq⟩ := s.passTime_frame n
      rw [heq]

/-! ### Cancelling -/

/-- One place's turn in cancelling (R127). -/
def State.cancelStep (which : Entry → Bool) (s : State) (p : PlaceIdx) : State :=
  match s.place p with
  | none => s
  | some e => if which e then s.cancelEntry p else s

theorem State.cancelEntries_eq (s : State) (which : Entry → Bool) :
    s.cancelEntries which = (List.finRange 4).foldl (State.cancelStep which) s := rfl

theorem State.cancelStep_of_not (which : Entry → Bool) (s : State) (p : PlaceIdx) (e : Entry) (he : s.place p = some e)
    (hw : which e = false) : s.cancelStep which p = s := by
  simp [State.cancelStep, he, hw]

theorem State.cancelStep_of (which : Entry → Bool) (s : State) (p : PlaceIdx) (e : Entry) (he : s.place p = some e)
    (hw : which e = true) : s.cancelStep which p = s.cancelEntry p := by
  simp [State.cancelStep, he, hw]

theorem State.DeferredCore.cancelStep {s : State} (h : s.DeferredCore) (which : Entry → Bool) (p : PlaceIdx) :
    (s.cancelStep which p).DeferredCore := by
  unfold State.cancelStep
  split
  · exact h
  · split
    · exact h.cancelEntry p
    · exact h

/-- Cancelling the entry of one place changes no other place, and puts none in the queued order. -/
theorem State.cancelEntry_others (s : State) (p : PlaceIdx) : (∀ q, q ≠ p → (s.cancelEntry p).place q = s.place q) ∧
    ∀ q, q ∉ s.queuedOrder → q ∉ (s.cancelEntry p).queuedOrder := by
  have hfreed : (∀ q, q ≠ p → (s.freePlace p).place q = s.place q) ∧
      ∀ q, q ∉ s.queuedOrder → q ∉ (s.freePlace p).queuedOrder :=
    ⟨fun q hq => State.place_setPlace_of_ne s p q none (Ne.symm hq), fun q hq hmem => hq (List.mem_of_mem_erase hmem)⟩
  have hcancelled : ∀ e : Entry, ∀ q, q ≠ p → (s.setPlace p (some e)).place q = s.place q := fun e q hq =>
    State.place_setPlace_of_ne s p q _ (Ne.symm hq)
  unfold State.cancelEntry
  repeat' split
  all_goals first
    | exact hfreed
    | exact ⟨fun _ _ => rfl, fun _ hq => hq⟩
    | exact ⟨hcancelled _, fun _ hq => hq⟩

theorem State.cancelStep_others (which : Entry → Bool) (s : State) (p : PlaceIdx) :
    (∀ q, q ≠ p → (s.cancelStep which p).place q = s.place q) ∧
    ∀ q, q ∉ s.queuedOrder → q ∉ (s.cancelStep which p).queuedOrder := by
  unfold State.cancelStep
  split
  · exact ⟨fun _ _ => rfl, fun _ hq => hq⟩
  · split
    · exact s.cancelEntry_others p
    · exact ⟨fun _ _ => rfl, fun _ hq => hq⟩

/-- The engine stays as it is while it does not gather for the place. -/
theorem State.DeferredCore.cancelStep_gather {s : State} (h : s.DeferredCore) (which : Entry → Bool) (p : PlaceIdx)
    (hp : ¬ s.gather.gathers p) : (s.cancelStep which p).gather = s.gather := by
  unfold State.cancelStep
  split
  · rfl
  · rename_i e he
    split
    · have hnot : e.state ≠ .gathering := fun hg => hp ((h.table.gathering p).mp ⟨e, he, hg⟩)
      unfold State.cancelEntry
      rw [he]
      dsimp only
      split
      · rfl
      · rfl
      · rfl
      · rfl
      · rename_i hg
        exact absurd hg hnot
    · rfl

theorem State.DeferredCore.foldl_cancelStep {s : State} (h : s.DeferredCore) (which : Entry → Bool) (l : List PlaceIdx) :
    (l.foldl (State.cancelStep which) s).DeferredCore := by
  induction l generalizing s with
  | nil => exact h
  | cons p l ih => exact ih (h.cancelStep which p)

theorem State.foldl_cancelStep_place (which : Entry → Bool) (l : List PlaceIdx) (s : State) (p : PlaceIdx) (hp : p ∉ l) :
    (l.foldl (State.cancelStep which) s).place p = s.place p := by
  induction l generalizing s with
  | nil => rfl
  | cons q l ih =>
    rw [List.foldl_cons, ih _ fun hmem => hp (List.mem_cons_of_mem _ hmem)]
    exact (s.cancelStep_others which q).1 p fun hpq => hp (hpq ▸ List.mem_cons_self)

theorem State.foldl_cancelStep_queuedOrder (which : Entry → Bool) (l : List PlaceIdx) (s : State) (p : PlaceIdx)
    (hp : p ∉ s.queuedOrder) : p ∉ (l.foldl (State.cancelStep which) s).queuedOrder := by
  induction l generalizing s with
  | nil => exact hp
  | cons q l ih => exact ih _ ((s.cancelStep_others which q).2 p hp)

theorem State.DeferredCore.foldl_cancelStep_gather {s : State} (h : s.DeferredCore) (which : Entry → Bool)
    (l : List PlaceIdx) (hl : ∀ p ∈ l, ¬ s.gather.gathers p) :
    (l.foldl (State.cancelStep which) s).gather = s.gather := by
  induction l generalizing s with
  | nil => rfl
  | cons p l ih =>
    have hfirst := h.cancelStep_gather which p (hl p List.mem_cons_self)
    rw [List.foldl_cons, ih (h.cancelStep which p) (by rw [hfirst]; exact fun q hq => hl q (List.mem_cons_of_mem _ hq)),
      hfirst]

/-- Cancelling, seen from one place: what its own turn does is what the end of the event shows. -/
theorem State.DeferredCore.cancelEntries_at {s : State} (h : s.DeferredCore) (which : Entry → Bool) (p : PlaceIdx) :
    ∃ u : State, u.DeferredCore ∧ u.place p = s.place p ∧ (s.gather.gathers p → u.gather = s.gather) ∧
      (s.cancelEntries which).place p = (u.cancelStep which p).place p ∧
      (p ∉ (u.cancelStep which p).queuedOrder → p ∉ (s.cancelEntries which).queuedOrder) ∧
      ((∀ q, ¬ (u.cancelStep which p).gather.gathers q) →
        (s.cancelEntries which).gather = (u.cancelStep which p).gather) := by
  obtain ⟨l, m, hl⟩ := List.append_of_mem (List.mem_finRange p)
  have hnodup := List.nodup_finRange 4
  rw [hl, List.nodup_append] at hnodup
  obtain ⟨-, hcons, hdisjoint⟩ := hnodup
  have hpl : p ∉ l := fun hp => hdisjoint p hp p List.mem_cons_self rfl
  have hpm : p ∉ m := (List.nodup_cons.mp hcons).1
  have hcore := h.foldl_cancelStep which l
  refine ⟨l.foldl (State.cancelStep which) s, hcore, State.foldl_cancelStep_place which l s p hpl, fun hg => ?_, ?_, ?_, ?_⟩
  · exact h.foldl_cancelStep_gather which l fun q hq hgq => hpl ((Gather.gathers_iff_eq hg q).mp hgq ▸ hq)
  · rw [s.cancelEntries_eq, hl, List.foldl_append, List.foldl_cons, State.foldl_cancelStep_place which m _ p hpm]
  · rw [s.cancelEntries_eq, hl, List.foldl_append, List.foldl_cons]
    exact State.foldl_cancelStep_queuedOrder which m _ p
  · rw [s.cancelEntries_eq, hl, List.foldl_append, List.foldl_cons]
    exact fun hnone => (hcore.cancelStep which p).foldl_cancelStep_gather which m fun q _ => hnone q

theorem State.cancelEntry_freed (s : State) (p : PlaceIdx) (e : Entry) (he : s.place p = some e)
    (hstate : e.state = .queued ∨ e.state = .ready ∨ e.state = .failed) : s.cancelEntry p = s.freePlace p := by
  unfold State.cancelEntry
  rw [he]
  rcases hstate with hst | hst | hst <;> simp only [hst]

theorem State.cancelEntry_cancelled (s : State) (p : PlaceIdx) (e : Entry) (he : s.place p = some e)
    (hstate : e.state = .cancelled) : s.cancelEntry p = s := by
  unfold State.cancelEntry
  rw [he]
  simp only [hstate]

/-- The GATHERING entry without an outstanding read (R127). -/
theorem State.cancelEntry_gathering (s : State) (p : PlaceIdx) (e : Entry) (he : s.place p = some e)
    (hstate : e.state = .gathering) (hg : s.gather.gathers p) (hout : s.gather.outstanding = []) :
    s.cancelEntry p = { s.freePlace p with gather := .idle } := by
  unfold State.cancelEntry
  rw [he]
  simp only [hstate]
  rcases hg with hg | ⟨sn, hg⟩ | ⟨job, hg⟩
  · rw [hg]
  · rw [hg]
  · rw [hg] at hout ⊢
    exact if_pos (List.isEmpty_iff.mpr hout)

/-- The GATHERING entry with outstanding reads (R127). -/
theorem State.cancelEntry_reading (s : State) (p : PlaceIdx) (e : Entry) (job : ReadJob) (he : s.place p = some e)
    (hstate : e.state = .gathering) (hgather : s.gather = .reading p job) (hout : job.outstanding ≠ []) :
    s.cancelEntry p = { s.setPlace p (some { e with state := .cancelled }) with
      gather := .cancelWait p { job with unissued := [] } } := by
  unfold State.cancelEntry
  rw [he]
  simp only [hstate, hgather]
  exact if_neg fun hnone => hout (List.isEmpty_iff.mp hnone)

/-- Settles O27: the turn of the entry's place meets the entry and, if it gathers for it, the engine as they were. -/
theorem cancellationFollowsTheEntryState : Obligations.CancellationFollowsTheEntryState := by
  intro s which hlaw
  obtain ⟨places, order, g, hframe⟩ := s.cancelEntries_frame which
  dsimp only
  refine ⟨by rw [hframe], by rw [hframe], by rw [hframe], by rw [hframe], fun p e he => ?_⟩
  obtain ⟨u, hcore, hplace, hgather, hat, hqueue, hend⟩ := hlaw.core.cancelEntries_at which p
  rw [he] at hplace
  rw [hat]
  refine ⟨fun hw => by rw [u.cancelStep_of_not which p e hplace hw, hplace], fun hw => ?_⟩
  rw [u.cancelStep_of which p e hplace hw] at hqueue hend ⊢
  refine ⟨fun hstate => ?_, fun hstate hout => ?_, fun job hstate hreading hout => ?_, fun hstate => ?_⟩
  · rw [u.cancelEntry_freed p e hplace hstate] at hqueue ⊢
    exact ⟨State.place_setPlace_self u p none, hqueue fun hmem =>
      (hcore.table.queuedOnce.mem_erase_iff.mp hmem).1 rfl⟩
  · have hg : s.gather.gathers p := (hlaw.gathering p).mp ⟨e, he, hstate⟩
    have hsame := hgather hg
    rw [u.cancelEntry_gathering p e hplace hstate (by rw [hsame]; exact hg) (by rw [hsame]; exact hout)] at hend ⊢
    exact ⟨State.place_setPlace_self u p none, hend (by simp [Gather.gathers])⟩
  · have hg : s.gather.gathers p := (hlaw.gathering p).mp ⟨e, he, hstate⟩
    have hsame := hgather hg
    rw [u.cancelEntry_reading p e job hplace hstate (by rw [hsame]; exact hreading) hout] at hend ⊢
    exact ⟨State.place_setPlace_self u p _, hend (by simp [Gather.gathers])⟩
  · rw [u.cancelEntry_cancelled p e hplace hstate]
    exact hplace

end Sys2Proof.Machine
end

section
/-! SUPPORT. The validity checks (R9) and coordinate translation (R25 to R36), in the words of the statements. -/

namespace Sys2Proof.Machine

/-! ### The validity checks (R9) -/

theorem Fields.turned_iff (f : Fields) : f.turned = true ↔ f.orientation = .r90 ∨ f.orientation = .r270 := by
  unfold Fields.turned
  cases f.orientation <;> simp

/-- The checks of R9 as conditions on the fields. -/
def Fields.conditions (f : Fields) : List (Detail × Prop) :=
  [(.width, 1 ≤ f.w ∧ f.w ≤ 8192), (.height, 1 ≤ f.h ∧ f.h ≤ 8192),
   (.depth, f.bitsPerElement = 1 ∨ f.bitsPerElement = 2 ∨ f.bitsPerElement = 4 ∨ f.bitsPerElement = 8 ∨
     f.bitsPerElement = 16),
   (.rowMultiple, 8 ∣ f.w * f.bitsPerElement),
   (.pitchFit, 1 ≤ f.pitch.toNat ∧ f.pitch.toNat ≤ 1024 ∧ f.ws * f.bitsPerElement ≤ f.pitch.toNat * 64 * 8),
   (.viewExtent, f.viewBase.toNat + f.w * f.h * f.bitsPerElement / 8 ≤ 0x100000000),
   (.surfaceExtent, f.surfaceBase.toNat + f.pitch.toNat * 64 * f.hs ≤ 0x100000000),
   (.alignment, 0x1000 ∣ f.viewBase.toNat ∧ 0x40 ∣ f.surfaceBase.toNat)]

/-- Each check tests its condition. -/
theorem Fields.checks_forall₂ (f : Fields) :
    List.Forall₂ (fun c q => c.1 = q.1 ∧ (c.2 = true ↔ q.2)) f.checks f.conditions :=
  .cons ⟨rfl, by simp⟩ <| .cons ⟨rfl, by simp⟩ <| .cons ⟨rfl, by simp⟩ <|
    .cons ⟨rfl, by simp [Nat.dvd_iff_mod_eq_zero]⟩ <| .cons ⟨rfl, by simp [and_assoc]⟩ <|
    .cons ⟨rfl, decide_eq_true_iff⟩ <| .cons ⟨rfl, decide_eq_true_iff⟩ <|
    .cons ⟨rfl, by simp [Nat.dvd_iff_mod_eq_zero]⟩ .nil

theorem Fields.invalid_of_first (f : Fields) (n : Nat) (e : Detail) (p : Prop) (hn : f.conditions[n]? = some (e, p))
    (hp : ¬ p) (hfirst : ∀ m < n, ∀ q : Detail × Prop, f.conditions[m]? = some q → q.2) : f.invalid = some e := by
  obtain ⟨hlength, hget⟩ := List.forall₂_iff_get.mp f.checks_forall₂
  obtain ⟨hlt, heq⟩ := List.getElem?_eq_some_iff.mp hn
  have hlt' : n < f.checks.length := hlength ▸ hlt
  have hcheck := hget n hlt' hlt
  simp only [List.get_eq_getElem, heq] at hcheck
  have hfind : f.checks.find? (fun c => !c.2) = some f.checks[n] := by
    rw [List.find?_eq_some_iff_getElem]
    refine ⟨by simpa using mt hcheck.2.mp hp, n, hlt', rfl, fun m hm => ?_⟩
    have hm' : m < f.conditions.length := Nat.lt_trans hm hlt
    have hthere := (hget m (Nat.lt_trans hm hlt') hm').2.mpr
      (hfirst m hm _ (List.getElem?_eq_getElem hm'))
    simpa using hthere
  rw [Fields.invalid, hfind, Option.map_some, hcheck.1]

theorem Fields.invalid_of_all (f : Fields) (h : ∀ q ∈ f.conditions, q.2) : f.invalid = none := by
  obtain ⟨hlength, hget⟩ := List.forall₂_iff_get.mp f.checks_forall₂
  rw [Fields.invalid, Option.map_eq_none_iff, List.find?_eq_none]
  intro c hc
  obtain ⟨n, hn, rfl⟩ := List.getElem_of_mem hc
  have hn' : n < f.conditions.length := hlength ▸ hn
  have := (hget n hn hn').2.mpr (h _ (List.getElem_mem hn'))
  simpa using this

/-- Settles O45: the conditions are the statement's, its widths and heights being those of R2. -/
theorem validityChecksFollowTheirOrder : Obligations.ValidityChecksFollowTheirOrder := by
  intro g W H d turned Ws Hs hturned hstraight
  have hs : Ws = g.ws ∧ Hs = g.hs := by
    unfold Fields.ws Fields.hs
    by_cases h : g.turned = true
    · rw [if_pos h, if_pos h]
      exact hturned (g.turned_iff.mp h)
    · rw [if_neg h, if_neg h]
      exact hstraight fun ht => h (g.turned_iff.mpr ht)
  obtain ⟨rfl, rfl⟩ := hs
  exact ⟨g.invalid_of_first, g.invalid_of_all⟩

/-- What the checks of R9 give, with the view pitch and the products written out. -/
structure Fields.Sound (f : Fields) : Prop where
  width : 1 ≤ f.w
  height : 1 ≤ f.h
  depth : f.bitsPerElement = 1 ∨ f.bitsPerElement = 2 ∨ f.bitsPerElement = 4 ∨ f.bitsPerElement = 8 ∨
    f.bitsPerElement = 16
  row : 8 * f.viewPitch = f.w * f.bitsPerElement
  pitch : 1 ≤ f.pitch.toNat
  fits : f.ws * f.bitsPerElement ≤ f.pitch.toNat * 512
  view : f.viewEnd = f.viewBase.toNat + f.h * f.viewPitch
  surface : f.surfaceEnd ≤ 2 ^ 32
  aligned : f.surfaceBase.toNat % 64 = 0

theorem Fields.sound_of_valid (f : Fields) (h : f.valid = true) : f.Sound := by
  have hall : ∀ q ∈ f.conditions, q.2 := by
    by_contra hnot
    push Not at hnot
    obtain ⟨hlength, hget⟩ := List.forall₂_iff_get.mp f.checks_forall₂
    obtain ⟨q, hq, hfalse⟩ := hnot
    obtain ⟨n, hn, rfl⟩ := List.getElem_of_mem hq
    have hn' : n < f.checks.length := hlength ▸ hn
    rw [Fields.valid, Option.isNone_iff_eq_none, Fields.invalid, Option.map_eq_none_iff, List.find?_eq_none] at h
    have hpass := h _ (List.getElem_mem hn')
    simp only [Bool.not_eq_true', Bool.not_eq_false] at hpass
    exact hfalse ((hget n hn' hn).2.mp hpass)
  simp only [Fields.conditions, List.forall_mem_cons, List.not_mem_nil, false_imp_iff, implies_true, and_true] at hall
  obtain ⟨⟨hw, -⟩, ⟨hh, -⟩, hd, hrow, ⟨hp, -, hfits⟩, -, hsurface, -, haligned⟩ := hall
  have hvp : 8 * f.viewPitch = f.w * f.bitsPerElement := Nat.mul_div_cancel' hrow
  exact {
    width := hw
    height := hh
    depth := hd
    row := hvp
    pitch := hp
    fits := by omega
    view := by
      rw [Fields.viewEnd]
      congr 1
      rw [show f.w * f.h * f.bitsPerElement = 8 * (f.h * f.viewPitch) by
        rw [Nat.mul_left_comm, hvp]
        ring]
      exact Nat.mul_div_cancel_left _ (by decide)
    surface := hsurface
    aligned := Nat.mod_eq_zero_of_dvd haligned }

/-! ### Elements and stored places (R25 to R28, R35) -/

/-- The stored place of a view element lies in the stored width and height (R27, R28). -/
theorem Fields.storedAt_lt (f : Fields) (x y : Nat) (hx : x < f.w) (hy : y < f.h) :
    (f.storedAt x y).1 < f.ws ∧ (f.storedAt x y).2 < f.hs := by
  unfold Fields.storedAt Fields.ws Fields.hs Fields.turned Fields.mirrored
  cases f.orientation <;> cases f.mirror <;> simp <;> omega

/-- The inverse map leads back from the stored place to the view element (R35). -/
theorem Fields.viewAt_storedAt (f : Fields) (x y : Nat) (hx : x < f.w) (hy : y < f.h) :
    f.viewAt (f.storedAt x y).1 (f.storedAt x y).2 = (x, y) := by
  unfold Fields.storedAt Fields.viewAt Fields.mirrored
  cases f.orientation <;> cases f.mirror <;> simp <;> omega

/-- The view element of a stored place lies in the view (R35). -/
theorem Fields.viewAt_lt (f : Fields) (u v : Nat) (hu : u < f.ws) (hv : v < f.hs) :
    (f.viewAt u v).1 < f.w ∧ (f.viewAt u v).2 < f.h := by
  revert hu hv
  unfold Fields.ws Fields.hs Fields.turned Fields.viewAt
  cases f.orientation <;> cases f.mirror <;> simp <;> omega

/-- And it is stored there (R35). -/
theorem Fields.storedAt_viewAt (f : Fields) (u v : Nat) (hu : u < f.ws) (hv : v < f.hs) :
    f.storedAt (f.viewAt u v).1 (f.viewAt u v).2 = (u, v) := by
  revert hu hv
  unfold Fields.ws Fields.hs Fields.turned Fields.viewAt Fields.storedAt Fields.mirrored
  cases f.orientation <;> cases f.mirror <;> simp <;> omega

theorem mul_add_div_mod (a d e : Nat) (he : e < d) : (a * d + e) / d = a ∧ (a * d + e) % d = e := by
  constructor
  · rw [Nat.add_comm, Nat.add_mul_div_right _ _ (Nat.zero_lt_of_lt he), Nat.div_eq_of_lt he, Nat.zero_add]
  · rw [Nat.mul_add_mod', Nat.mod_eq_of_lt he]

/-- The view byte and bit of bit `e` of the view element `(x, y)` (R25, R26, R35). -/
def Fields.byteOf (f : Fields) (x y e : Nat) : Nat × Nat :=
  if f.bitsPerElement ≤ 8 then (y * f.viewPitch + x * f.bitsPerElement / 8, x * f.bitsPerElement % 8 + e)
  else (y * f.viewPitch + 2 * x + e / 8, e % 8)

/-- Row bits and elements of a row (R25, R26): the one byte and bit, and the one element and its bit. -/
theorem row_bits (d x e c k : Nat) (hd : d = 1 ∨ d = 2 ∨ d = 4 ∨ d = 8 ∨ d = 16) (he : e < d) (hk : k < 8)
    (h : x * d + e = 8 * c + k) :
    (if d ≤ 8 then (x * d / 8, x * d % 8 + e) else (2 * x + e / 8, e % 8)) = (c, k) := by
  rcases hd with rfl | rfl | rfl | rfl | rfl <;> simp <;> omega

/-- The element and its bit that a view byte's bit names, in range (R25, R26). -/
theorem Fields.Sound.elementAt {f : Fields} (h : f.Sound) (b k : Nat) (hb : b < f.h * f.viewPitch) (hk : k < 8) :
    let x := (f.elementAt b k).1.1
    let y := (f.elementAt b k).1.2
    let e := (f.elementAt b k).2
    x < f.w ∧ y < f.h ∧ e < f.bitsPerElement ∧ y = b / f.viewPitch ∧
      x * f.bitsPerElement + e = 8 * (b % f.viewPitch) + k ∧ f.byteOf x y e = (b, k) := by
  have hd : 0 < f.bitsPerElement := by rcases h.depth with hd | hd | hd | hd | hd <;> omega
  have hvp : 0 < f.viewPitch := Nat.pos_of_ne_zero fun hzero => by simp [hzero] at hb
  have hmod := Nat.mod_lt b hvp
  have hrow := Nat.div_add_mod' (8 * (b % f.viewPitch) + k) f.bitsPerElement
  have he := Nat.mod_lt (8 * (b % f.viewPitch) + k) hd
  have hx : (8 * (b % f.viewPitch) + k) / f.bitsPerElement < f.w := by
    rw [Nat.div_lt_iff_lt_mul hd, ← h.row]
    omega
  have hy : b / f.viewPitch < f.h := (Nat.div_lt_iff_lt_mul hvp).mpr hb
  refine ⟨hx, hy, he, rfl, hrow, ?_⟩
  have hbits := row_bits _ _ _ _ _ h.depth he hk hrow
  have hbyte := Nat.div_add_mod' b f.viewPitch
  unfold Fields.byteOf Fields.elementAt
  dsimp only
  split at hbits <;> rename_i hdepth
  · obtain ⟨h1, h2⟩ := Prod.mk.inj hbits
    rw [if_pos hdepth, h1, h2, hbyte]
  · obtain ⟨h1, h2⟩ := Prod.mk.inj hbits
    rw [if_neg hdepth, h2, Nat.add_assoc, h1, hbyte]

/-- The byte and bit of an element's bit name that element and bit (R25, R26, R35). -/
theorem Fields.Sound.elementAt_byteOf {f : Fields} (h : f.Sound) (x y e : Nat) (hx : x < f.w) (hy : y < f.h)
    (he : e < f.bitsPerElement) :
    (f.byteOf x y e).1 < f.h * f.viewPitch ∧ (f.byteOf x y e).2 < 8 ∧
      f.elementAt (f.byteOf x y e).1 (f.byteOf x y e).2 = ((x, y), e) := by
  have hd : 0 < f.bitsPerElement := by rcases h.depth with hd | hd | hd | hd | hd <;> omega
  obtain ⟨c, k, hk, hbits⟩ : ∃ c k, k < 8 ∧ x * f.bitsPerElement + e = 8 * c + k :=
    ⟨(x * f.bitsPerElement + e) / 8, (x * f.bitsPerElement + e) % 8, Nat.mod_lt _ (by decide), (Nat.div_add_mod _ 8).symm⟩
  have hlt : x * f.bitsPerElement + e < f.w * f.bitsPerElement :=
    calc x * f.bitsPerElement + e < x * f.bitsPerElement + f.bitsPerElement := Nat.add_lt_add_left he _
      _ = (x + 1) * f.bitsPerElement := (Nat.succ_mul _ _).symm
      _ ≤ f.w * f.bitsPerElement := Nat.mul_le_mul_right _ hx
  have hc : c < f.viewPitch := by have := h.row; omega
  have hbyte : f.byteOf x y e = (y * f.viewPitch + c, k) := by
    have hrow := row_bits _ _ _ _ _ h.depth he hk hbits
    unfold Fields.byteOf
    split at hrow <;> rename_i hdepth
    · obtain ⟨h1, h2⟩ := Prod.mk.inj hrow
      rw [if_pos hdepth, h1, h2]
    · obtain ⟨h1, h2⟩ := Prod.mk.inj hrow
      rw [if_neg hdepth, h2, Nat.add_assoc, h1]
  rw [hbyte]
  refine ⟨?_, hk, ?_⟩
  · calc y * f.viewPitch + c < y * f.viewPitch + f.viewPitch := Nat.add_lt_add_left hc _
      _ = (y + 1) * f.viewPitch := (Nat.succ_mul _ _).symm
      _ ≤ f.h * f.viewPitch := Nat.mul_le_mul_right _ hy
  · unfold Fields.elementAt
    dsimp only
    rw [(mul_add_div_mod y f.viewPitch c hc).1, (mul_add_div_mod y f.viewPitch c hc).2, ← hbits,
      (mul_add_div_mod x f.bitsPerElement e he).1, (mul_add_div_mod x f.bitsPerElement e he).2]

end Sys2Proof.Machine
end

section
/-! SUPPORT. The statements about the commands of the management link (R7 to R17, R96, R161, R172, R177, R189, R191). -/

namespace Sys2Proof.Machine

/-! ### Refused frames (R161) -/

/-- The commands, each with its code, its frame, the lengths it allows and whether every part state takes it. -/
def linkCommands : List (Byte × (Frame → Instr) × (Nat × Nat) × Bool) :=
  [(0x01#8, .getStatus, (0, 0), true), (0x02#8, .getAperture, (1, 1), false), (0x03#8, .getEvents, (0, 0), true),
   (0x04#8, .dumpSlots, (0, 0), true), (0x05#8, .dumpDeferred, (0, 0), true), (0x20#8, .stage, (20, 20), false),
   (0x21#8, .commit, (1, 1), false), (0x22#8, .suspend, (1, 1), false), (0x23#8, .resume, (1, 1), false),
   (0x24#8, .retire, (1, 1), false), (0x2C#8, .fence, (0, 0), false), (0x30#8, .clearEvents, (1, 1), true),
   (0x31#8, .setTiming, (5, 5), false), (0x32#8, .setAttention, (1, 1), false), (0x40#8, .flashOpen, (0, 0), false),
   (0x41#8, fun g => .flashXfer g [], (2, 33), false), (0x42#8, .flashClose, (0, 0), false),
   (0x5A#8, .restart, (0, 0), false)]

/-- The command's row stands in the table, and its frame is taken by the command's decider. -/
def TakenByItsRow (c : Byte × (Frame → Instr) × (Nat × Nat) × Bool) : Prop :=
  commandRow c.1 = some ⟨c.1, c.2.2.1.1, c.2.2.1.2, c.2.2.2⟩ ∧
    ∃ d : Decider, ∀ f s, exec (c.2.1 f) s = .next (s.takeFrame c.1 f d)

theorem linkCommands_takenByTheirRows : ∀ c ∈ linkCommands, TakenByItsRow c := by
  simp only [linkCommands, List.forall_mem_cons]
  refine ⟨⟨rfl, statusDecider, fun _ _ => rfl⟩, ⟨rfl, apertureDecider, fun _ _ => rfl⟩,
    ⟨rfl, eventsDecider, fun _ _ => rfl⟩, ⟨rfl, slotsDecider, fun _ _ => rfl⟩,
    ⟨rfl, deferredDecider, fun _ _ => rfl⟩, ⟨rfl, stageDecider, fun _ _ => rfl⟩,
    ⟨rfl, indexDecider State.commitAt, fun _ _ => rfl⟩, ⟨rfl, indexDecider State.suspendAt, fun _ _ => rfl⟩,
    ⟨rfl, indexDecider State.resumeAt, fun _ _ => rfl⟩, ⟨rfl, indexDecider State.retireAt, fun _ _ => rfl⟩,
    ⟨rfl, fenceDecider, fun _ _ => rfl⟩, ⟨rfl, clearDecider, fun _ _ => rfl⟩,
    ⟨rfl, timingDecider, fun _ _ => rfl⟩, ⟨rfl, attentionDecider, fun _ _ => rfl⟩,
    ⟨rfl, openDecider, fun _ _ => rfl⟩, ⟨rfl, xferDecider [], fun _ _ => rfl⟩,
    ⟨rfl, closeDecider, fun _ _ => rfl⟩, ⟨rfl, restartDecider, fun _ _ => rfl⟩, ?_⟩
  simp

/-- A code that no command has is in no row. -/
theorem commandRow_eq_none (code : Byte) (h : ∀ c ∈ linkCommands, c.1 ≠ code) : commandRow code = none := by
  have hcodes : commandTable.map (·.code) = linkCommands.map (·.1) := rfl
  rw [commandRow, List.find?_eq_none]
  intro row hrow hcode
  have hmem : row.code ∈ linkCommands.map (·.1) := hcodes ▸ List.mem_map_of_mem hrow
  obtain ⟨c, hc, hsame⟩ := List.mem_map.mp hmem
  exact h c hc (hsame.trans (by simpa using hcode))

/-- Settles O42: every frame is taken by its row, whose conditions are tried in the order of R161. -/
theorem refusedFramesChangeNothing : Obligations.RefusedFramesChangeNothing := by
  intro s f hphase commands
  refine ⟨fun code hcheck => congrArg _ (s.takeFrame_badCheck code f _ hphase hcheck),
    fun code hcheck hnone =>
      congrArg _ (s.takeFrame_unknown code f _ ⟨hphase, hcheck⟩ (commandRow_eq_none code hnone)),
    fun c hc => ?_⟩
  obtain ⟨hrow, d, hexec⟩ := linkCommands_takenByTheirRows c hc
  refine ⟨fun hcheck => ?_, fun hcheck => ⟨fun hlength => ?_, fun hmin hmax hstate hrun => ?_⟩⟩
  · rw [hexec, s.takeFrame_badCheck c.1 f d hphase hcheck]
  · rw [hexec, s.takeFrame_length c.1 f d _ ⟨hphase, hcheck⟩ hrow hlength]
  · rw [hexec, s.takeFrame_busy c.1 f d _ ⟨hphase, hcheck⟩ hrow hmin hmax hstate hrun]

/-! ### Frames taken in RUN -/

/-- A frame taken in RUN is answered with its decider's result in its decider's state. -/
theorem State.takeFrame_of_run {s t : State} {code : Byte} {f : Frame} {d : Decider} {row : CommandRow} {r : Result}
    (h : s.FrameArrives code f) (hrun : s.partState = .run) (hrow : commandRow code = some row)
    (hlength : row.minL ≤ f.args.length ∧ f.args.length ≤ row.maxL) (hd : d f.args s = (r, t))
    (hkept : t.receiver = s.receiver) :
    (.next (s.takeFrame code f d) : Host.Outcome State Fault Refusal) = .next (t.responding code f r) := by
  rw [s.takeFrame_taken code f d row h hrow hlength.1 hlength.2 (.inr hrun) (by rw [hd]; exact hkept), hd]

theorem State.settle_receiver (s : State) (causes : List Cause) : (s.settle causes).receiver = s.receiver := by
  obtain ⟨-, -, -, -, -, -, -, -, -, -, -, -, -, hreceiver⟩ := s.settle_keeps causes
  exact hreceiver

theorem State.cancelEntries_receiver (s : State) (which : Entry → Bool) :
    (s.cancelEntries which).receiver = s.receiver := by
  obtain ⟨_, _, _, h⟩ := s.cancelEntries_frame which
  rw [h]

theorem State.closeFor_receiver (s : State) (causes : List Cause) : (s.closeFor causes).receiver = s.receiver := by
  obtain ⟨_, _, _, _, h⟩ := s.closeFor_frame causes
  rw [h]

/-! ### Commands on an aperture index (R8, R13, R15, R17) -/

theorem indexDecider_of_none (at' : State → ApertureIdx → Result × State) (b : Byte) (s : State) (h : 7 < b.toNat) :
    indexDecider at' [b] s = (.invalid .index, s) := by
  rw [indexDecider, byteAt_singleton, (indexOf_eq_none b).mpr h]

theorem indexDecider_of_some (at' : State → ApertureIdx → Result × State) (b : Byte) (s : State) (i : ApertureIdx)
    (h : i.val = b.toNat) : indexDecider at' [b] s = at' s i := by
  rw [indexDecider, byteAt_singleton, (indexOf_eq_some b i).mpr h]

section IndexFrames

variable {s : State} {code : Byte} {f : Frame} {b : Byte} {at' : State → ApertureIdx → Result × State}
  (h : s.FrameArrives code f) (hrun : s.partState = .run) (hrow : commandRow code = some ⟨code, 1, 1, false⟩)
  (hargs : f.args = [b])
include h hrun hrow hargs

theorem State.takeFrame_index_none (hb : 7 < b.toNat) :
    (.next (s.takeFrame code f (indexDecider at')) : Host.Outcome State Fault Refusal) =
      .next (s.responding code f (.invalid .index)) :=
  State.takeFrame_of_run h hrun hrow (by simp [hargs]) (hargs ▸ indexDecider_of_none at' b s hb) rfl

theorem State.takeFrame_index_some {i : ApertureIdx} (hi : i.val = b.toNat) {t : State} {r : Result}
    (hat : at' s i = (r, t)) (hkept : t.receiver = s.receiver) :
    (.next (s.takeFrame code f (indexDecider at')) : Host.Outcome State Fault Refusal) =
      .next (t.responding code f r) :=
  State.takeFrame_of_run h hrun hrow (by simp [hargs])
    (hargs ▸ (indexDecider_of_some at' b s i hi).trans hat) hkept

end IndexFrames

/-! ### COMMIT (R8) -/

theorem State.firstOverlap_eq_some (s : State) (overlaps : Fields → Bool) (j : ApertureIdx) :
    s.firstOverlap overlaps = some j ↔
      ((s.aperture j).state ≠ .empty ∧ overlaps (s.aperture j).fields = true) ∧
        ∀ m < j, ¬ ((s.aperture m).state ≠ .empty ∧ overlaps (s.aperture m).fields = true) := by
  rw [State.firstOverlap, find?_finRange_eq_some]
  simp

theorem State.firstOverlap_eq_none (s : State) (overlaps : Fields → Bool) (h : ∀ j, s.firstOverlap overlaps ≠ some j) :
    s.firstOverlap overlaps = none := Option.eq_none_iff_forall_ne_some.mpr h

/-- Settles O44: the conditions of R8, one after the other. -/
theorem commitFollowsItsConditions : Obligations.CommitFollowsItsConditions := by
  intro s f b harrives hrun hargs refused firstOf
  refine ⟨State.takeFrame_index_none harrives hrun commandRow_codeCommit hargs, fun i hi => ?_⟩
  have answers : ∀ {t : State} {r : Result}, s.commitAt i = (r, t) → t.receiver = s.receiver →
      exec (.commit f) s = .next (t.responding 0x21#8 f r) :=
    State.takeFrame_index_some harrives hrun commandRow_codeCommit hargs hi
  refine ⟨fun hstaging => answers (by simp only [State.commitAt, hstaging]) rfl, fun g hstaging =>
    ⟨fun hstate => answers (by simp only [State.commitAt, hstaging, if_pos hstate]) rfl, fun hstate => ?_⟩⟩
  have hnot : ¬ (s.aperture i).state ≠ .empty := not_not_intro hstate
  refine ⟨fun d hd => answers (by simp only [State.commitAt, hstaging, if_neg hnot, hd]) rfl, fun hvalid => ?_⟩
  have hnone : g.invalid = none := by simpa [Fields.valid] using hvalid
  refine ⟨fun j hj => answers
    (by simp only [State.commitAt, hstaging, if_neg hnot, hnone, (s.firstOverlap_eq_some _ j).mpr hj]) rfl,
    fun hviews => ?_⟩
  have hviews' := s.firstOverlap_eq_none g.viewsOverlap fun j => mt (s.firstOverlap_eq_some _ j).mp (hviews j)
  refine ⟨fun j hj => answers
    (by simp only [State.commitAt, hstaging, if_neg hnot, hnone, hviews', (s.firstOverlap_eq_some _ j).mpr hj]) rfl,
    fun hsurfaces => ?_⟩
  have hsurfaces' := s.firstOverlap_eq_none g.surfacesOverlap fun j => mt (s.firstOverlap_eq_some _ j).mp (hsurfaces j)
  exact answers (t := s.install i g)
    (by simp only [State.commitAt, hstaging, if_neg hnot, hnone, hviews', hsurfaces']) rfl

/-! ### SUSPEND, RESUME and RETIRE (R13 to R17) -/

theorem State.suspendAt_refused (s : State) (i : ApertureIdx)
    (h : (s.aperture i).state = .empty ∨ (s.aperture i).state = .draining) : s.suspendAt i = (.state, s) := by
  rcases h with h | h <;> rw [State.suspendAt, h]

theorem State.resumeAt_refused (s : State) (i : ApertureIdx)
    (h : (s.aperture i).state = .empty ∨ (s.aperture i).state = .draining) : s.resumeAt i = (.state, s) := by
  rcases h with h | h <;> rw [State.resumeAt, h]

theorem State.retireAt_refused (s : State) (i : ApertureIdx)
    (h : (s.aperture i).state = .empty ∨ (s.aperture i).state = .draining) : s.retireAt i = (.state, s) := by
  rcases h with h | h <;> rw [State.retireAt, h]

theorem State.retireAt_accepted (s : State) (i : ApertureIdx)
    (h : (s.aperture i).state = .active ∨ (s.aperture i).state = .suspended) :
    s.retireAt i = (.accepted, s.beginDrain i) := by
  rcases h with h | h <;> rw [State.retireAt, h]

theorem State.beginDrain_receiver (s : State) (i : ApertureIdx) : (s.beginDrain i).receiver = s.receiver := by
  rw [State.beginDrain, State.settle_receiver, State.cancelEntries_receiver]
  rfl

/-- Settles O46: each command's rule at its index, by the aperture's state. -/
theorem apertureStateCommandsMoveTheState : Obligations.ApertureStateCommandsMoveTheState := by
  refine ⟨fun s f b hrun hargs => ⟨fun harrives => ?suspend, fun harrives => ?resume⟩,
    fun s f b harrives hrun hargs => ?retire⟩
  case suspend =>
    refine ⟨State.takeFrame_index_none harrives hrun commandRow_codeSuspend hargs, fun i hi => ?_⟩
    have answers : ∀ {t : State} {r : Result}, s.suspendAt i = (r, t) → t.receiver = s.receiver →
        exec (.suspend f) s = .next (t.responding 0x22#8 f r) :=
      State.takeFrame_index_some harrives hrun commandRow_codeSuspend hargs hi
    exact ⟨fun hstate => answers (t := s.withApertureState i .suspended) (by rw [State.suspendAt, hstate]) rfl,
      fun hstate => answers (by rw [State.suspendAt, hstate]) rfl,
      fun hstate => answers (s.suspendAt_refused i hstate) rfl⟩
  case resume =>
    refine ⟨State.takeFrame_index_none harrives hrun commandRow_codeResume hargs, fun i hi => ?_⟩
    have answers : ∀ {t : State} {r : Result}, s.resumeAt i = (r, t) → t.receiver = s.receiver →
        exec (.resume f) s = .next (t.responding 0x23#8 f r) :=
      State.takeFrame_index_some harrives hrun commandRow_codeResume hargs hi
    exact ⟨fun hstate => answers (t := s.withApertureState i .active) (by rw [State.resumeAt, hstate]) rfl,
      fun hstate => answers (by rw [State.resumeAt, hstate]) rfl,
      fun hstate => answers (s.resumeAt_refused i hstate) rfl⟩
  case retire =>
    refine ⟨State.takeFrame_index_none harrives hrun commandRow_codeRetire hargs, fun i hi => ?_⟩
    have answers : ∀ {t : State} {r : Result}, s.retireAt i = (r, t) → t.receiver = s.receiver →
        exec (.retire f) s = .next (t.responding 0x24#8 f r) :=
      State.takeFrame_index_some harrives hrun commandRow_codeRetire hargs hi
    exact ⟨fun hstate => answers (s.retireAt_refused i hstate) rfl,
      fun hstate => answers (s.retireAt_accepted i hstate) (s.beginDrain_receiver i)⟩

/-! ### FENCE (R96) -/

theorem State.mem_busySlots (s : State) (k : SlotIdx) : k ∈ s.busySlots ↔ (s.slot k).state ≠ .free := by
  simp [State.busySlots]

/-- Marking the slots that are not FREE, slot by slot. -/
theorem State.markSlots_busySlots (s t : State) (h : t.slots = s.slots) : t.markSlots s.busySlots = { t with
    slots := s.slots.map (fun x : Slot => if x.state = SlotState.free then x else { x with mark := true }) } := by
  obtain ⟨slots, hmarked⟩ := State.markSlots_frame s.busySlots t
  suffices hslots : slots = s.slots.map
      (fun x : Slot => if x.state = SlotState.free then x else { x with mark := true }) by rw [hmarked, hslots]
  ext k hk : 1
  have hslot := State.markSlots_slot s.busySlots t ⟨k, hk⟩
  rw [State.slot_congr t s h] at hslot
  have hleft : slots[k] = (t.markSlots s.busySlots).slot ⟨k, hk⟩ := by rw [hmarked]; rfl
  rw [hleft, hslot, Vector.getElem_map]
  by_cases hfree : (s.slot ⟨k, hk⟩).state = .free
  · rw [if_neg (fun hmem => (s.mem_busySlots _).mp hmem hfree)]
    exact (if_pos hfree).symm
  · rw [if_pos ((s.mem_busySlots _).mpr hfree)]
    exact (if_neg hfree).symm

theorem State.beginFence_eq (s : State) : s.beginFence = { s with
    fence := ⟨.pending, some ⟨s.acceptCount, none⟩, false⟩
    slots := s.slots.map (fun x : Slot => if x.state = SlotState.free then x else { x with mark := true }) }.settle
      [⟨.fence, s.openOrder⟩] := by
  have hmarks := State.markSlots_busySlots s { s with fence := ⟨.pending, some (s.takePrior none), false⟩ } rfl
  exact congrArg (fun t : State => t.settle [⟨.fence, s.openOrder⟩]) hmarks

/-- Settles O47: an accepted fence marks the slots that are not FREE. -/
theorem fenceMarksAndFlushes : Obligations.FenceMarksAndFlushes := by
  intro s f harrives hrun hargs
  have answers : ∀ {t : State} {r : Result}, fenceDecider f.args s = (r, t) → t.receiver = s.receiver →
      exec (.fence f) s = .next (t.responding 0x2C#8 f r) :=
    State.takeFrame_of_run harrives hrun commandRow_codeFence (by simp [hargs])
  refine ⟨fun hpending => answers (by rw [fenceDecider, if_pos hpending]) rfl, fun hpending => answers ?_ ?_⟩
  · rw [fenceDecider, if_neg hpending, State.beginFence_eq]
  · exact State.settle_receiver _ _

/-! ### SET_TIMING and SET_ATTENTION (R172, R177) -/

theorem Timing.acceptable_iff (t : Timing) :
    t.acceptable = true ↔ t.ageLimit ≤ 4095 ∧ 16 ≤ t.discardLimit ∧ 1 ≤ t.allowance ∧ t.allowance ≤ 15 := by
  simp [Timing.acceptable, and_assoc]

/-- What the new settings close is what their deadlines name (R85). -/
theorem State.retime_eq (s : State) (timing : Timing) : s.retime timing = { s with timing := timing }.closeFor
    [⟨.age, s.openOrder.filter
      (fun k => timing.ageLimit ≠ 0 ∧ (s.slot k).openTime + timing.ageLimit ≤ s.now)⟩] := by
  have haged : ({ s with timing := timing } : State).agedBy s.now = s.openOrder.filter
      (fun k => timing.ageLimit ≠ 0 ∧ (s.slot k).openTime + timing.ageLimit ≤ s.now) := by
    refine List.filter_congr fun k _ => ?_
    by_cases hzero : timing.ageLimit = 0
    · simp [State.ageDeadline, hzero]
    · simp [State.ageDeadline, hzero, State.slot]
  rw [State.retime, ← haged]

/-- Settles O53: the settings in range are taken together, and the slots past their new deadlines close. -/
theorem setTimingSetsAllThree : Obligations.SetTimingSetsAllThree := by
  intro s f harrives hrun hlength age discard allowance fits
  have hfits : (timingOf f.args).acceptable = true ↔ fits := Timing.acceptable_iff _
  have answers : ∀ {t : State} {r : Result}, timingDecider f.args s = (r, t) → t.receiver = s.receiver →
      exec (.setTiming f) s = .next (t.responding 0x31#8 f r) :=
    State.takeFrame_of_run harrives hrun commandRow_codeSetTiming (by simp [hlength])
  refine ⟨fun hnot => answers ?_ rfl, fun hfit => answers ?_ (State.closeFor_receiver _ _)⟩
  · rw [timingDecider, if_neg (mt hfits.mp hnot)]
  · rw [timingDecider, if_pos (hfits.mpr hfit), State.retime_eq]
    rfl

/-- A count rises by one and stands at 255 (R173). -/
theorem countUp_toNat (c : Byte) : (countUp c).toNat = min 255 (c.toNat + 1) := by
  unfold countUp
  have hc := c.isLt
  split
  · rename_i h
    rw [h]
    rfl
  · rename_i h
    have hne : c.toNat ≠ 255 := fun heq => h (BitVec.eq_of_toNat_eq heq)
    rw [BitVec.toNat_add, Nat.min_eq_right (by omega)]
    exact Nat.mod_eq_of_lt (by simp; omega)

theorem EventUnit.raise_counts (e : EventUnit) (k : EventKind) (i : Option ApertureIdx) (a : Addr)
    (q : Option Requester) (j : Fin 8) :
    (e.raise k i a q).counts[j].toNat = if j = k.number then min 255 (e.counts[j].toNat + 1) else e.counts[j].toNat := by
  by_cases hj : j = k.number
  · rw [if_pos hj, hj, EventUnit.raise_counts_same, countUp_toNat]
  · have hne : k.number.val ≠ j.val := fun heq => hj (Fin.ext heq.symm)
    simp [EventUnit.raise, hne, hj]

theorem EventUnit.raise_lastFault_of_not (e : EventUnit) (k : EventKind) (i : Option ApertureIdx) (a : Addr)
    (q : Option Requester) (h : k = .tableFull ∨ k = .linkError) : (e.raise k i a q).lastFault = e.lastFault := by
  rcases h with rfl | rfl <;> rfl

/-- Settles O52: a raise read field by field, and ATTN as the flags the mask selects. -/
theorem raisesAndAttentionDriveAttn : Obligations.RaisesAndAttentionDriveAttn := by
  refine ⟨fun e k i a q => ⟨rfl, fun j => ⟨e.raise_flags_getLsbD k i a q j, e.raise_counts k i a q j⟩,
    e.raise_lastFault_of_not k i a q, fun hfull hlink =>
      e.raise_lastFault k i a q (k.records_iff.mpr ⟨hfull, hlink⟩)⟩, fun s f m harrives hrun hargs => ?_,
    fun s => s.events.attn_iff⟩
  exact State.takeFrame_of_run (d := attentionDecider) harrives hrun commandRow_codeSetAttention (by simp [hargs])
    (by rw [hargs]; rfl) rfl

/-! ### FLASH_XFER and RESTART (R189, R191) -/

theorem State.PartLaw.selN_of_open {s : State} (h : s.PartLaw) (hrun : s.partState = .run) :
    s.flash.selN = false ↔ s.session = .selected := by
  rw [h.selected, h.loader_idle_of_run hrun]
  simp

/-- What the flash returned is as long as what was shifted out. -/
theorem shiftedIn_length (flashIn : List Byte) : shiftedIn flashIn.length flashIn = flashIn := by
  refine List.ext_getElem (by simp [shiftedIn]) fun n hn hn' => ?_
  simp [shiftedIn, byteAt, hn']

theorem xferDecider_of_open (flashIn args : List Byte) (s : State) (h : s.session ≠ .closed) :
    xferDecider flashIn args s = match xferFlag (byteAt args 0) with
      | none => (.invalid .field, s)
      | some after => (.ok (shiftedIn args.tail.length flashIn), s.transfer args.tail after) := by
  unfold xferDecider
  split
  · exact absurd ‹_› h
  · rfl
  · rfl

theorem xferFlag_eq_none (b : Byte) (h : 1 < b.toNat) : xferFlag b = none := by
  unfold xferFlag
  rw [if_neg (fun hb => by simp [hb] at h), if_neg (fun hb => by simp [hb] at h)]

/-- Settles O55: the transfer in an open session, with FL_SEL_N low exactly when the session is SELECTED. -/
theorem flashTransferShiftsThePayload : Obligations.FlashTransferShiftsThePayload := by
  intro s f flag payload flashIn harrives hrun hlaw hargs hmin hmax hlength
  have answers : ∀ {t : State} {r : Result}, xferDecider flashIn f.args s = (r, t) → t.receiver = s.receiver →
      exec (.flashXfer f flashIn) s = .next (t.responding 0x41#8 f r) :=
    State.takeFrame_of_run harrives hrun commandRow_codeFlashXfer (by simp [hargs]; omega)
  refine ⟨fun hclosed => answers (by rw [xferDecider, hclosed]) rfl, fun hopen => ?_⟩
  have hdecides := xferDecider_of_open flashIn f.args s hopen
  have hflag : byteAt f.args 0 = flag := by rw [hargs]; rfl
  have hback : shiftedIn f.args.tail.length flashIn = flashIn := by
    rw [hargs, List.tail_cons, ← hlength, shiftedIn_length]
  have htail : f.args.tail = payload := by rw [hargs, List.tail_cons]
  rw [hflag, hback, htail] at hdecides
  refine ⟨fun hundefined => answers (by rw [hdecides, xferFlag_eq_none flag hundefined]) rfl, ?_⟩
  rintro selects rfl
  have hselects : (if s.flash.selN = false then s.trace else .flashSelect false :: s.trace) =
      (if s.session = .selected then [] else [Output.flashSelect false]) ++ s.trace := by
    simp only [hlaw.selN_of_open hrun]
    split <;> rfl
  refine ⟨fun hzero => ?_, fun hone => ?_⟩
  · have hresult : xferDecider flashIn f.args s = (.ok flashIn, s.transfer payload .selected) := by
      rw [hdecides, hzero]
      rfl
    rw [State.transfer_selected, hselects] at hresult
    exact ⟨_, _, _, answers hresult rfl⟩
  · have hresult : xferDecider flashIn f.args s = (.ok flashIn, s.transfer payload .deselected) := by
      rw [hdecides, hone]
      rfl
    rw [State.transfer_deselected, hselects] at hresult
    exact ⟨_, _, _, answers hresult rfl⟩

/-- A closed session leaves a resting link as it is; an open one is closed by force. -/
theorem State.PartLaw.closeSession_eq {s : State} (h : s.PartLaw) (hrun : s.partState = .run) :
    s.closeSession = { s with
      session := .closed
      flash := ⟨true, false, false⟩
      trace := if s.flash.selN then s.trace else .flashSelect true :: s.trace } := by
  by_cases hclosed : s.session = .closed
  · have hrest := h.flash_rest_of_run_closed hrun hclosed
    rw [s.closeSession_of_closed hclosed]
    have htrace : (if s.flash.selN then s.trace else .flashSelect true :: s.trace) = s.trace := by
      rw [hrest]
      rfl
    rw [htrace, ← hclosed, show (⟨true, false, false⟩ : FlashPins) = s.flash from hrest.symm]
  · exact s.closeSession_of_open hclosed

/-- Settles O56: RESTART is taken in RUN, where a closed session's link rests. -/
theorem restartBeginsQuiescing : Obligations.RestartBeginsQuiescing := by
  intro s f harrives hrun hargs hlaw
  refine State.takeFrame_of_run (d := restartDecider) harrives hrun commandRow_codeRestart (by simp [hargs]) ?_ ?_
  · rw [restartDecider, State.beginQuiescing, hlaw.closeSession_eq hrun]
  · rw [State.settle_receiver, State.cancelEntries_receiver]

end Sys2Proof.Machine
end

section
/-! SUPPORT. The statements about images and dumps (R7, R169, R170, R195 to R200). -/

namespace Sys2Proof.Machine

/-! ### Numbers read and written again (R195) -/

theorem numberOf_concat (bytes : List Byte) (b : Byte) : numberOf (bytes ++ [b]) = numberOf bytes * 256 + b.toNat := by
  simp [numberOf]

/-- The last byte written is the lowest. -/
theorem bytesOf_succ_concat (k n : Nat) : bytesOf (k + 1) n = bytesOf k (n / 256) ++ [BitVec.ofNat 8 n] := by
  induction k with
  | zero => simp [bytesOf]
  | succ k ih =>
    rw [bytesOf, ih, bytesOf, Nat.div_div_eq_div_mul, ← Nat.pow_succ', List.cons_append]

theorem numberOf_lt (bytes : List Byte) : numberOf bytes < 256 ^ bytes.length := by
  induction bytes using List.reverseRecOn with
  | nil => simp [numberOf]
  | append_singleton bytes b ih =>
    have hb := b.isLt
    rw [numberOf_concat, List.length_append, List.length_singleton, Nat.pow_succ]
    omega

/-- A number read from bytes and written out again gives the bytes. -/
theorem bytesOf_numberOf (bytes : List Byte) : bytesOf bytes.length (numberOf bytes) = bytes := by
  induction bytes using List.reverseRecOn with
  | nil => rfl
  | append_singleton bytes b ih =>
    have hb := b.isLt
    have hhigh : (numberOf bytes * 256 + b.toNat) / 256 = numberOf bytes := by omega
    have hlow : BitVec.ofNat 8 (numberOf bytes * 256 + b.toNat) = b := by
      refine BitVec.eq_of_toNat_eq ?_
      rw [BitVec.toNat_ofNat]
      omega
    rw [List.length_append, List.length_singleton, bytesOf_succ_concat, numberOf_concat, hhigh, hlow, ih]

theorem bytesOf_toNat_ofNat_numberOf (k : Nat) (bytes : List Byte) (h : bytes.length = k) :
    bytesOf k (BitVec.ofNat (8 * k) (numberOf bytes)).toNat = bytes := by
  subst h
  have hlt := numberOf_lt bytes
  rw [show 256 = 2 ^ 8 from rfl, ← Nat.pow_mul] at hlt
  rw [BitVec.toNat_ofNat, Nat.mod_eq_of_lt hlt, bytesOf_numberOf]

/-! ### Enumerated fields (R198) -/

theorem orientationOf_eq_some (b : Byte) (o : Orientation) (h : orientationOf b = some o) : o.code = b := by
  unfold orientationOf at h
  grind [Orientation.code]

theorem orientationOf_eq_none (b : Byte) : orientationOf b = none ↔ 3 < b.toNat := by
  unfold orientationOf
  simp only [← BitVec.toNat_inj]
  grind

theorem mirrorOf_eq_some (b : Byte) (m : Bool) (h : mirrorOf b = some m) : flagByte m = b := by
  unfold mirrorOf at h
  grind [flagByte]

theorem mirrorOf_eq_none (b : Byte) : mirrorOf b = none ↔ 1 < b.toNat := by
  unfold mirrorOf
  simp only [← BitVec.toNat_inj]
  grind

theorem accessOf_eq_some (b : Byte) (a : Access) (h : accessOf b = some a) : a.code = b := by
  unfold accessOf at h
  grind [Access.code]

theorem accessOf_eq_none (b : Byte) : accessOf b = none ↔ 2 < b.toNat := by
  unfold accessOf
  simp only [← BitVec.toNat_inj]
  grind

theorem surfaceAccessOf_eq_some (b : Byte) (a : SurfaceAccess) (h : surfaceAccessOf b = some a) : a.code = b := by
  unfold surfaceAccessOf at h
  grind [SurfaceAccess.code]

theorem surfaceAccessOf_eq_none (b : Byte) : surfaceAccessOf b = none ↔ 1 < b.toNat := by
  unfold surfaceAccessOf
  simp only [← BitVec.toNat_inj]
  grind

theorem readOrderingOf_eq_some (b : Byte) (r : ReadOrdering) (h : readOrderingOf b = some r) : r.code = b := by
  unfold readOrderingOf at h
  grind [ReadOrdering.code]

theorem readOrderingOf_eq_none (b : Byte) : readOrderingOf b = none ↔ 1 < b.toNat := by
  unfold readOrderingOf
  simp only [← BitVec.toNat_inj]
  grind

/-! ### The aperture image (R198) -/

/-- An image has fields unless one of its enumerated bytes is undefined. -/
theorem fieldsOfImage_eq_none (im : List Byte) : fieldsOfImage im = none ↔
    3 < (byteAt im 15).toNat ∨ 1 < (byteAt im 16).toNat ∨ 2 < (byteAt im 17).toNat ∨ 1 < (byteAt im 18).toNat ∨
      1 < (byteAt im 19).toNat := by
  rw [← orientationOf_eq_none, ← mirrorOf_eq_none, ← accessOf_eq_none, ← surfaceAccessOf_eq_none,
    ← readOrderingOf_eq_none]
  constructor
  · intro h
    by_contra hall
    simp only [not_or, ← ne_eq, Option.ne_none_iff_exists'] at hall
    obtain ⟨⟨o, ho⟩, ⟨m, hm⟩, ⟨a, ha⟩, ⟨sa, hsa⟩, r, hr⟩ := hall
    simp [fieldsOfImage, ho, hm, ha, hsa, hr] at h
  · rintro (h | h | h | h | h) <;> simp [fieldsOfImage, h]

/-- The image of the fields read from twenty bytes is the bytes. -/
theorem image_of_fieldsOfImage (im : List Byte) (f : Fields) (hlength : im.length = 20)
    (h : fieldsOfImage im = some f) : f.image = im := by
  simp only [fieldsOfImage, bind, Option.bind_eq_some_iff, pure, Option.some.injEq] at h
  obtain ⟨o, ho, m, hm, a, ha, sa, hsa, r, hr, rfl⟩ := h
  have four := fun bytes => bytesOf_toNat_ofNat_numberOf 4 bytes
  have two := fun bytes => bytesOf_toNat_ofNat_numberOf 2 bytes
  have hslice : ∀ i n, i + n ≤ 20 → (slice im i n).length = n := fun i n hin => by
    rw [slice, List.length_take, List.length_drop]
    omega
  rw [Fields.image, orientationOf_eq_some _ _ ho, mirrorOf_eq_some _ _ hm, accessOf_eq_some _ _ ha,
    surfaceAccessOf_eq_some _ _ hsa, readOrderingOf_eq_some _ _ hr, four _ (hslice 0 4 (by omega)),
    four _ (hslice 4 4 (by omega)), two _ (hslice 8 2 (by omega)), two _ (hslice 10 2 (by omega)),
    two _ (hslice 12 2 (by omega))]
  match im, hlength with
  | [_, _, _, _, _, _, _, _, _, _, _, _, _, _, _, _, _, _, _, _], _ => rfl

/-- Settles O60: the image and its reading are inverse to each other. -/
theorem apertureImageReadsBack : Obligations.ApertureImageReadsBack :=
  ⟨fun f => ⟨f.image_length, fieldsOfImage_image f⟩, rfl, image_of_fieldsOfImage⟩

/-- Settles O43: the image is read, or its undefined code refused. -/
theorem stageReplacesTheStagingRecord : Obligations.StageReplacesTheStagingRecord := by
  intro s f harrives hrun hlength undefinedCode
  have answers : ∀ {t : State} {r : Result}, stageDecider f.args s = (r, t) → t.receiver = s.receiver →
      exec (.stage f) s = .next (t.responding 0x20#8 f r) :=
    State.takeFrame_of_run harrives hrun commandRow_codeStage (by simp [hlength])
  refine ⟨fun hundefined => answers ?_ rfl, fun hdefined => ?_⟩
  · rw [stageDecider, (fieldsOfImage_eq_none f.args).mpr hundefined]
  · obtain ⟨g, hg⟩ := Option.ne_none_iff_exists'.mp (mt (fieldsOfImage_eq_none f.args).mp hdefined)
    exact ⟨g, image_of_fieldsOfImage f.args g hlength hg,
      answers (t := { s with staging := some g }) (by rw [stageDecider, hg]) rfl⟩

/-! ### Records side by side in a dump -/

/-- The `i`-th of records of `m` bytes each, laid side by side. -/
theorem slice_flatMap {α : Type} (record : α → List Byte) (m : Nat) :
    ∀ (l : List α) (i : Nat) (hi : i < l.length), (∀ x ∈ l, (record x).length = m) →
      slice (l.flatMap record) (m * i) m = record l[i]
  | [], i, hi, _ => absurd hi (Nat.not_lt_zero i)
  | x :: l, 0, _, hm => by
    have hx := hm x (List.mem_cons_self ..)
    simp [slice, ← hx]
  | x :: l, i + 1, hi, hm => by
    have hx := hm x (List.mem_cons_self ..)
    have hshift : slice ((x :: l).flatMap record) (m * (i + 1)) m = slice (l.flatMap record) (m * i) m := by
      rw [List.flatMap_cons, slice, slice, Nat.mul_succ, Nat.add_comm, ← List.drop_drop, ← hx, List.drop_left]
    rw [hshift, slice_flatMap record m l i (by simpa using hi) fun y hy => hm y (List.mem_cons_of_mem _ hy)]
    rfl

/-- A byte of a piece of a dump. -/
theorem getElem?_of_slice {bytes piece : List Byte} {i n : Nat} (h : slice bytes i n = piece) (j : Nat) (hj : j < n) :
    bytes[i + j]? = piece[j]? := by
  rw [← h, slice, List.getElem?_take_of_lt hj, List.getElem?_drop]

/-- Bytes of a piece of a dump. -/
theorem slice_of_slice {bytes piece : List Byte} {i n : Nat} (h : slice bytes i n = piece) (j m : Nat)
    (hjm : j + m ≤ n) : slice bytes (i + j) m = slice piece j m := by
  rw [← h, slice, slice, slice, ← List.drop_drop, List.drop_take, List.take_take, Nat.min_eq_left (by omega)]

theorem numberOf_bytesOf_two (n : Nat) : numberOf (bytesOf 2 n) = n % 65536 := numberOf_bytesOf 2 n

theorem numberOf_bytesOf_addr (a : Addr) : numberOf (bytesOf 4 a.toNat) = a.toNat :=
  (numberOf_bytesOf 4 a.toNat).trans (Nat.mod_eq_of_lt a.isLt)

/-! ### DUMP_SLOTS (R169) -/

theorem Slot.record_length (x : Slot) : x.record.length = 10 := by simp [Slot.record]

theorem Slot.record_cleared : Slot.cleared.record = List.replicate 10 0 := by
  have hcount : bitCount Slot.cleared.coverage = 0 := by simp [bitCount, Slot.cleared]
  rw [Slot.record, hcount]
  rfl

theorem bitCount_lt (c : BitSet512) : bitCount c < 65536 := by
  have := List.countP_le_length (p := fun p => c.getLsbD p) (l := List.range 512)
  rw [List.length_range] at this
  exact Nat.lt_of_le_of_lt this (by omega)

/-- The bytes of a slot's record (R200). -/
theorem Slot.record_bytes (x : Slot) :
    x.record[0]? = some x.state.code ∧ slice x.record 1 4 = bytesOf 4 x.line.toNat ∧
    x.record[5]? = some (BitVec.ofNat 8 x.aperture.val) ∧ slice x.record 6 2 = bytesOf 2 (bitCount x.coverage) ∧
    x.record[8]? = some (flagByte x.mark) ∧ x.record[9]? = some x.reason.code :=
  ⟨rfl, rfl, rfl, rfl, rfl, rfl⟩

/-- The slot dump: sixteen records side by side. -/
def State.slotDump (s : State) : List Byte := (List.finRange 16).flatMap (fun k => (s.slot k).record)

theorem State.slotDump_length (s : State) : s.slotDump.length = 160 := by
  simp [State.slotDump, Slot.record_length, List.length_flatMap]

theorem State.slotDump_record (s : State) (k : SlotIdx) : slice s.slotDump (10 * k.val) 10 = (s.slot k).record := by
  have := slice_flatMap (fun k => (s.slot k).record) 10 (List.finRange 16) k.val (by simp)
    fun j _ => (s.slot j).record_length
  simpa [State.slotDump] using this

/-! ### DUMP_DEFERRED (R170) -/

/-- The bytes of the record of a place with an entry (R200). -/
theorem State.placeRecord_bytes (s : State) (p : PlaceIdx) (e : Entry) (he : s.place p = some e) :
    (s.placeRecord p)[0]? = some e.state.code ∧ (s.placeRecord p)[1]? = some (BitVec.ofNat 8 e.requester.val) ∧
    slice (s.placeRecord p) 2 4 = bytesOf 4 e.address.toNat ∧ (s.placeRecord p)[6]? = some (BitVec.ofNat 8 e.beats) ∧
    (s.placeRecord p)[7]? = some (BitVec.ofNat 8 e.aperture.val) ∧ (s.placeRecord p)[8]? = some (flagByte e.stale) ∧
    slice (s.placeRecord p) 9 2 = bytesOf 2 (e.expiry.elim 0 (· - s.now)) ∧
    slice (s.placeRecord p) 11 2 = bytesOf 2 (if e.state.reportsLines then (s.entryFootprint e).length else 0) ∧
    slice (s.placeRecord p) 13 2 = bytesOf 2 (if e.state.reportsLines then s.gather.completedFor p else 0) := by
  simp only [State.placeRecord, he]
  refine ⟨rfl, rfl, rfl, rfl, rfl, rfl, ?_, rfl, rfl⟩
  cases e.expiry <;> rfl

theorem State.placeRecord_of_none (s : State) (p : PlaceIdx) (h : s.place p = none) :
    s.placeRecord p = List.replicate 15 0#8 := by
  simp only [State.placeRecord, h]

theorem State.placeRecord_length (s : State) (p : PlaceIdx) : (s.placeRecord p).length = 15 := by
  unfold State.placeRecord
  split <;> simp

/-- The dump of the deferred read table: four records side by side. -/
def State.deferredDump (s : State) : List Byte := (List.finRange 4).flatMap s.placeRecord

theorem State.deferredDump_length (s : State) : s.deferredDump.length = 60 := by
  simp [State.deferredDump, State.placeRecord_length, List.length_flatMap]

theorem State.deferredDump_record (s : State) (p : PlaceIdx) :
    slice s.deferredDump (15 * p.val) 15 = s.placeRecord p := by
  have := slice_flatMap s.placeRecord 15 (List.finRange 4) p.val (by simp) fun q _ => s.placeRecord_length q
  simpa [State.deferredDump] using this

theorem EntryState.reportsLines_of_not (st : EntryState) (h : st = .queued ∨ st = .ready ∨ st = .failed) :
    st.reportsLines = false := by
  rcases h with rfl | rfl | rfl <;> rfl

theorem EntryState.reportsLines_of_served (st : EntryState) (h : st = .gathering ∨ st = .cancelled) :
    st.reportsLines = true := by
  rcases h with rfl | rfl <;> rfl

theorem Gather.completedFor_of_served (g : Gather) (p : PlaceIdx) (job : ReadJob)
    (h : g = .reading p job ∨ g = .cancelWait p job) : g.completedFor p = job.completed := by
  rcases h with rfl | rfl <;> exact if_pos rfl

theorem Gather.completedFor_of_not_served (g : Gather) (p : PlaceIdx)
    (h : ∀ job, g ≠ .reading p job ∧ g ≠ .cancelWait p job) : g.completedFor p = 0 := by
  cases g with
  | reading q job =>
    refine if_neg fun hq => (h job).1 ?_
    rw [hq]
  | cancelWait q job =>
    refine if_neg fun hq => (h job).2 ?_
    rw [hq]
  | idle => rfl
  | priorWait _ => rfl
  | slotWait _ _ => rfl
  | immediate _ _ => rfl

/-- A frame without arguments that every part state takes and that changes nothing is answered with its data. -/
theorem State.takeFrame_report {s : State} {code : Byte} {f : Frame} {d : Decider} {data : List Byte}
    (h : s.FrameArrives code f) (hargs : f.args = []) (hrow : commandRow code = some ⟨code, 0, 0, true⟩)
    (hd : d f.args s = (.ok data, s)) :
    (.next (s.takeFrame code f d) : Host.Outcome State Fault Refusal) = .next (s.responding code f (.ok data)) := by
  rw [s.takeFrame_taken code f d _ h hrow (Nat.zero_le _) (by simp [hargs]) (.inl rfl) (by rw [hd]), hd]

/-- Settles O50: each dump is its records side by side. -/
theorem dumpsChangeNothing : Obligations.DumpsChangeNothing := by
  intro s f hargs
  refine ⟨fun harrives => ⟨s.slotDump, s.slotDump_length,
      State.takeFrame_report (d := slotsDecider) harrives hargs commandRow_codeDumpSlots rfl, fun k => ?slots⟩,
    fun harrives => ⟨s.deferredDump, s.deferredDump_length,
      State.takeFrame_report (d := deferredDecider) harrives hargs commandRow_codeDumpDeferred rfl,
      fun p => ⟨fun hnone => ?empty, fun e he => ?entry⟩⟩⟩
  case slots =>
    have hrecord := s.slotDump_record k
    obtain ⟨hstate, hline, haperture, hcount, hmark, hreason⟩ := (s.slot k).record_bytes
    refine ⟨fun hcleared => ?_, ?_, ?_, ?_, ?_, ?_, ?_⟩
    · rw [hrecord, hcleared, Slot.record_cleared]
    · exact (getElem?_of_slice hrecord 0 (by omega)).trans hstate
    · rw [slice_of_slice hrecord 1 4 (by omega), hline, numberOf_bytesOf_addr]
    · exact (getElem?_of_slice hrecord 5 (by omega)).trans haperture
    · rw [slice_of_slice hrecord 6 2 (by omega), hcount, numberOf_bytesOf_two, Nat.mod_eq_of_lt (bitCount_lt _)]
      rfl
    · exact (getElem?_of_slice hrecord 8 (by omega)).trans hmark
    · exact (getElem?_of_slice hrecord 9 (by omega)).trans hreason
  case empty =>
    rw [s.deferredDump_record p, s.placeRecord_of_none p hnone]
    rfl
  case entry =>
    have hrecord := s.deferredDump_record p
    obtain ⟨hstate, hrequester, haddress, hbeats, haperture, hstale, hexpiry, hlines, hcompleted⟩ :=
      s.placeRecord_bytes p e he
    have hexpiry' : numberOf (slice s.deferredDump (15 * p.val + 9) 2) = e.expiry.elim 0 (· - s.now) % 65536 := by
      rw [slice_of_slice hrecord 9 2 (by omega), hexpiry, numberOf_bytesOf_two]
    have hlines' : numberOf (slice s.deferredDump (15 * p.val + 11) 2) =
        (if e.state.reportsLines then (s.entryFootprint e).length else 0) % 65536 := by
      rw [slice_of_slice hrecord 11 2 (by omega), hlines, numberOf_bytesOf_two]
    have hcompleted' : numberOf (slice s.deferredDump (15 * p.val + 13) 2) =
        (if e.state.reportsLines then s.gather.completedFor p else 0) % 65536 := by
      rw [slice_of_slice hrecord 13 2 (by omega), hcompleted, numberOf_bytesOf_two]
    refine ⟨(getElem?_of_slice hrecord 0 (by omega)).trans hstate,
      (getElem?_of_slice hrecord 1 (by omega)).trans hrequester, ?_,
      (getElem?_of_slice hrecord 6 (by omega)).trans hbeats, (getElem?_of_slice hrecord 7 (by omega)).trans haperture,
      (getElem?_of_slice hrecord 8 (by omega)).trans hstale, fun x hx hlt => ?_, fun hnone => ?_, fun hnot => ?_,
      fun hserved => ⟨?_, fun job hjob => ?_, fun hjob => ?_⟩⟩
    · rw [slice_of_slice hrecord 2 4 (by omega), haddress, numberOf_bytesOf_addr]
    · rw [hexpiry', hx]
      exact Nat.mod_eq_of_lt hlt
    · rw [hexpiry', hnone]
      rfl
    · rw [hlines', hcompleted', e.state.reportsLines_of_not hnot]
      exact ⟨rfl, rfl⟩
    · rw [hlines', if_pos (e.state.reportsLines_of_served hserved)]
      rfl
    · rw [hcompleted', if_pos (e.state.reportsLines_of_served hserved), Gather.completedFor_of_served _ p job hjob]
    · rw [hcompleted', if_pos (e.state.reportsLines_of_served hserved), Gather.completedFor_of_not_served _ p hjob]

end Sys2Proof.Machine
end

section
/-! SUPPORT. The end of an event (R41, R65, R94; R87 to R89, R101, R118, R119, R133 to R137, R192), in the words of the
statements. -/

namespace Sys2Proof.Machine

/-! ### What settling leaves -/

/-- The records keep their order through an event's end. -/
theorem State.settle_positions (s : State) (causes : List Cause) :
    (s.settle causes).intake.map (·.position) = s.intake.map (·.position) := by
  obtain ⟨-, -, -, hintake, -⟩ := s.settle_fields causes
  obtain ⟨_, _, _, _, hclosed⟩ := s.closeFor_frame (s.endCauses causes)
  rw [hintake, hclosed]
  simp

theorem State.settle_forward_tail (s : State) (causes : List Cause) :
    (s.settle causes).forward.tail = s.forward.tail := by
  obtain ⟨-, -, -, -, hforward, -⟩ := s.settle_fields causes
  obtain ⟨queue, hqueue, htail⟩ := s.guardProgress_frame
  rw [hforward, hqueue]
  exact htail

/-- Settles O34: `State.settle_keeps` in QUIESCING, and `State.settle_frame` outside it. -/
theorem settlingLeavesTheRest : Obligations.SettlingLeavesTheRest := by
  intro s causes t
  obtain ⟨hpending, hnow, hready, houtcome, hsession, hport, haccept, hscatter, hposted, htags, hholder, hused, hevents,
    hreceiver⟩ := s.settle_keeps causes
  refine ⟨hpending, hnow, hready, houtcome, hsession, hport, haccept, hscatter, hposted, htags, hholder, hused, hevents,
    hreceiver, s.settle_positions causes, s.settle_forward_tail causes, fun hne => ?_⟩
  obtain ⟨_, _, _, _, _, _, _, _, _, _, hframe, -⟩ := s.settle_frame causes hne
  show (s.settle causes).partState = _ ∧ (s.settle causes).loader = _ ∧ (s.settle causes).flash = _ ∧
    (s.settle causes).staging = _ ∧ (s.settle causes).timing = _ ∧ (s.settle causes).trace = _
  rw [hframe]
  exact ⟨rfl, rfl, rfl, rfl, rfl, rfl⟩

/-! ### The tests at the end of an event (R19, R101, R192, R193) -/

/-- Settling up to its tests changes the combine store, the records' touched-slot lists, the deferred read table, the
gather engine and the forward queue; then the fence, the drains and QUIESCING are tested. -/
theorem State.settle_tested (s : State) (causes : List Cause) :
    ∃ slots opens flushes records order places g queue, s.settle causes = State.quiesceTest (State.drainTests
      (State.fenceTest { s with
        slots := slots, openOrder := opens, flushOrder := flushes, intake := records
        queuedOrder := order, places := places, gather := g, forward := queue })) := by
  obtain ⟨queue, h1, -⟩ := s.guardProgress_frame
  obtain ⟨g, order, places, h2⟩ := State.gatherProgress_frame s.guardProgress.1
  obtain ⟨slots, opens, flushes, touched, h3⟩ := State.closeFor_frame s.guardProgress.1.gatherProgress.1 (causes ++
    [⟨.restart, s.guardProgress.1.gatherProgress.1.restartDemand⟩, ⟨.guard, s.guardProgress.2⟩,
      ⟨.gather, s.guardProgress.1.gatherProgress.2⟩])
  exact ⟨slots, opens, flushes, _, order, places, g, queue, by rw [State.settle_eq, h3, h2, h1]⟩

/-- Whether the part is quiet depends on nothing that the end of QUIESCING changes. -/
theorem State.quiet_congr (s t : State) (hport : t.port = s.port) (hintake : t.intake = s.intake)
    (hscatter : t.scatter = s.scatter) (hforward : t.forward = s.forward) (hposted : t.posted = s.posted)
    (hslots : t.slots = s.slots) (hplaces : t.places = s.places) (hgather : t.gather = s.gather)
    (htags : t.tags = s.tags) : t.quiet = s.quiet := by
  simp only [State.quiet, State.slot, State.place, State.tag, hport, hintake, hscatter, hforward, hposted, hslots,
    hplaces, hgather, htags]

theorem State.fenceTest_fence (s : State) : s.fenceTest.fence =
    if s.fenceComplete = true then ⟨if s.fence.fault then .doneFault else .done, none, false⟩ else s.fence := by
  unfold State.fenceTest
  split <;> rfl

/-- The end of an event, test by test: `u` is the state that is tested, `t` the state left. -/
theorem State.tested_keeps {s u t : State} (h : t = u.fenceTest.drainTests.quiesceTest)
    (hfence : u.fence = s.fence) (hapertures : u.apertures = s.apertures) :
    t.slots = u.slots ∧ t.intake = u.intake ∧ t.places = u.places ∧
    t.fence = (if u.fenceComplete = true then ⟨if s.fence.fault then .doneFault else .done, none, false⟩ else s.fence) ∧
    (∀ i, u.fenceTest.drainTests.aperture i = if u.fenceTest.drained i = true then Aperture.cleared else s.aperture i) := by
  obtain ⟨f, hf⟩ := u.fenceTest_frame
  obtain ⟨a, ha⟩ := u.fenceTest.drainTests_frame
  obtain ⟨hslots, -, -, hintake, hfence', -, -, hplaces, -⟩ := u.fenceTest.drainTests.quiesceTest_keeps
  have htested := u.fenceTest_fence
  rw [hfence] at htested
  refine ⟨?_, ?_, ?_, ?_, fun i => ?_⟩
  · rw [h, hslots, ha, hf]
  · rw [h, hintake, ha, hf]
  · rw [h, hplaces, ha, hf]
  · rw [h, hfence', ha]
    exact htested
  · have happ : u.fenceTest.aperture i = s.aperture i := by
      rw [hf]
      exact congrArg (fun v : Vector Aperture 8 => v[i]) hapertures
    rw [State.drainTests_aperture, happ]

theorem State.quiesceTest_of_quiet {s : State} (h : s.partState = .quiescing) (hquiet : s.quiet = true) :
    s.quiesceTest = s.endQuiescing := if_pos ⟨h, hquiet⟩

theorem State.quiesceTest_of_not {s : State} (h : ¬ (s.partState = .quiescing ∧ s.quiet = true)) :
    s.quiesceTest = s := if_neg h

/-- Settles O35: the three tests read the state they leave. -/
theorem settlingTestsFenceDrainsAndQuiescing : Obligations.SettlingTestsFenceDrainsAndQuiescing := by
  intro s causes t complete ended quiet
  obtain ⟨slots, opens, flushes, records, order, places, g, queue, htested⟩ := s.settle_tested causes
  generalize hu : ({ s with
    slots := slots, openOrder := opens, flushOrder := flushes, intake := records
    queuedOrder := order, places := places, gather := g, forward := queue } : State) = u at htested
  obtain ⟨hslots, hintake, hplaces, hfence, haperture⟩ :=
    State.tested_keeps (s := s) htested (by rw [← hu]) (by rw [← hu])
  obtain ⟨f, hf⟩ := u.fenceTest_frame
  obtain ⟨a, ha⟩ := u.fenceTest.drainTests_frame
  obtain ⟨-, -, -, -, -, hport, -, hscatter, hposted, htags, -⟩ := s.settle_keeps causes
  have hslot : ∀ k, u.slot k = t.slot k := State.slot_congr u t hslots.symm
  have hcomplete : u.fenceComplete = true ↔ complete := by
    rw [State.fenceComplete_iff, ← hintake, show u.fence = s.fence by rw [← hu]]
    simp only [hslot]
    exact Iff.rfl
  have hended : ∀ i, u.fenceTest.drained i = true ↔ ended i := by
    intro i
    have happ : u.fenceTest.aperture i = s.aperture i := by rw [hf, ← hu]; rfl
    have hslot' : ∀ k, u.fenceTest.slot k = t.slot k := fun k => by rw [hf]; exact hslot k
    have hplace : ∀ p, u.fenceTest.place p = t.place p := fun p => by
      rw [hf]
      exact State.place_congr u t hplaces.symm p
    have hport' : u.fenceTest.port = t.port := by rw [hf, ← hu]; exact hport.symm
    have hintake' : u.fenceTest.intake = t.intake := by rw [hf]; exact hintake.symm
    rw [State.drained_iff, happ, hintake', hport']
    simp only [hslot', hplace]
    exact Iff.rfl
  have hquiet : u.fenceTest.drainTests.quiet = true ↔ quiet := by
    obtain ⟨-, -, -, -, -, hforward', hgather', -, -⟩ := u.fenceTest.drainTests.quiesceTest_keeps
    have hkept : u.fenceTest.drainTests.port = s.port ∧ u.fenceTest.drainTests.scatter = s.scatter ∧
        u.fenceTest.drainTests.posted = s.posted ∧ u.fenceTest.drainTests.tags = s.tags ∧
        u.fenceTest.drainTests.intake = u.intake ∧ u.fenceTest.drainTests.slots = u.slots ∧
        u.fenceTest.drainTests.places = u.places := by
      rw [ha, hf, ← hu]
      exact ⟨rfl, rfl, rfl, rfl, rfl, rfl, rfl⟩
    obtain ⟨kport, kscatter, kposted, ktags, kintake, kslots, kplaces⟩ := hkept
    rw [← State.quiet_congr u.fenceTest.drainTests t (hport.trans kport.symm) (hintake.trans kintake.symm)
      (hscatter.trans kscatter.symm) ((congrArg State.forward htested).trans hforward')
      (hposted.trans kposted.symm) (hslots.trans kslots.symm) (hplaces.trans kplaces.symm)
      ((congrArg State.gather htested).trans hgather') (htags.trans ktags.symm), State.quiet_iff]
  have hpart : u.fenceTest.drainTests.partState = s.partState := by rw [ha, hf, ← hu]
  refine ⟨fun hc => ?_, fun hc => ?_, fun hstays i => ?_, fun hquiescing => ⟨fun hq => ?_, fun hq => ?_⟩⟩
  · exact hfence.trans (if_pos (hcomplete.mpr hc))
  · exact hfence.trans (if_neg (mt hcomplete.mp hc))
  · have ht : t = u.fenceTest.drainTests := htested.trans
      (State.quiesceTest_of_not (by rw [hpart, hquiet]; exact hstays))
    rw [ht]
    refine ⟨fun he => ?_, fun he => ?_⟩
    · exact (haperture i).trans (if_pos ((hended i).mpr he))
    · exact (haperture i).trans (if_neg (mt (hended i).mp he))
  · obtain ⟨clk, more, hend⟩ := u.fenceTest.drainTests.endQuiescing_frame
    have ht : t = _ := htested.trans
      ((State.quiesceTest_of_quiet (hpart.trans hquiescing) (hquiet.mpr hq)).trans hend)
    rw [ht]
    exact ⟨rfl, rfl, rfl, fun i => by simp [State.aperture], rfl, rfl, _, rfl⟩
  · have ht : t = u.fenceTest.drainTests := htested.trans
      (State.quiesceTest_of_not (by rw [hquiet]; exact fun h => hq h.2))
    rw [ht, ha, hf, ← hu]
    exact ⟨hquiescing, rfl, rfl, rfl, rfl, rfl⟩

end Sys2Proof.Machine
end

section
/-! SUPPORT. The closings of an event, and the steps of the head and of the gather engine at its end (R87 to R89, R99,
R105, R118, R119, R133 to R137). -/

namespace Sys2Proof.Machine

/-! ### The reasons of the closings at the end of an event (R88) -/

/-- Causes that do not name a slot do not matter to its reason. -/
theorem reasonFor_append_of_not_named (causes more : List Cause) (k : SlotIdx) (h : ∀ c ∈ causes, k ∉ c.slots) :
    reasonFor (causes ++ more) k = reasonFor more k := by
  have hnamed : namedFor (causes ++ more) k = namedFor more k := by
    funext r
    have hnot : causes.any (fun c => c.reason == r && c.slots.contains k) = false := by
      simpa using fun c hc _ => h c hc
    rw [namedFor, List.any_append, hnot, Bool.false_or, namedFor]
  rw [reasonFor, hnamed, reasonFor]

section EndReasons

variable (s : State) (causes : List Cause) (k : SlotIdx)

theorem State.reasonFor_endCauses (h : ∀ c ∈ causes, k ∉ c.slots) : reasonFor (s.endCauses causes) k =
    if k ∈ s.restartDemand then some .restart else if k ∈ s.guardProgress.2 then some .guard
      else if k ∈ s.gatherProgress.2 then some .gather else none := by
  rw [State.endCauses, reasonFor_append_of_not_named _ _ _ h]
  by_cases hrestart : k ∈ s.restartDemand
  · simp [reasonFor, reasonOrder, namedFor, hrestart]
  · by_cases hguard : k ∈ s.guardProgress.2
    · simp [reasonFor, reasonOrder, namedFor, hrestart, hguard]
    · by_cases hgather : k ∈ s.gatherProgress.2 <;>
        simp [reasonFor, reasonOrder, namedFor, hrestart, hguard, hgather]

/-- What the end of an event demands is named, whatever the event's own causes name. -/
theorem State.endCauses_named (h : k ∈ s.restartDemand ∨ k ∈ s.guardProgress.2 ∨ k ∈ s.gatherProgress.2) :
    ∃ r, reasonFor (s.endCauses causes) k = some r := by
  rw [← Option.isSome_iff_exists, reasonFor_isSome]
  rcases h with h | h | h <;> simp [State.endCauses, h]

end EndReasons

/-- A slot that is not FREE and that the end of an event names is flushing afterwards. -/
theorem State.SlotLaw.settle_flushing {s : State} (h : s.SlotLaw) (causes : List Cause) (k : SlotIdx)
    (hk : (s.slot k).state ≠ .free) {r : FlushReason} (hr : reasonFor (s.endCauses causes) k = some r) :
    ((s.settle causes).slot k).state.flushing ∧
      ((s.slot k).state = .opened → ((s.settle causes).slot k).reason = r) := by
  obtain ⟨hslots, -⟩ := s.settle_fields causes
  rw [State.slot_congr _ _ hslots]
  by_cases hopen : (s.slot k).state = .opened
  · obtain ⟨hclosed, -, -⟩ := h.closes (s.endCauses causes) k r ((h.openList k).mpr hopen) hr
    rw [hclosed]
    exact ⟨Slot.closed_flushing _ _ _, fun _ => rfl⟩
  · rw [s.closeFor_slot_of_not_named _ k (.inl (mt (h.openList k).mp hopen))]
    refine ⟨?_, fun hopened => absurd hopened hopen⟩
    unfold SlotState.flushing
    cases hst : (s.slot k).state with
    | free => exact absurd hst hk
    | opened => exact absurd hst hopen
    | merging => exact .inl rfl
    | writing => exact .inr rfl

theorem State.restartDemand_eq (s : State) :
    s.restartDemand = if s.partState = .quiescing ∧ s.intake = [] then s.openOrder else [] := by
  simp only [State.restartDemand, List.isEmpty_iff]

/-! ### The gather engine's step (R118, R119) -/

/-- Going on with the entry in place `p` reads the intake, the slots and the aperture table. -/
theorem State.gatherServe_exact (s u : State) (p : PlaceIdx) (e : Entry) (hintake : u.intake = s.intake)
    (hslots : u.slots = s.slots) (hapertures : u.apertures = s.apertures) :
    let lines := (s.aperture e.aperture).fields.footprint e.address e.beats
    let slots := s.slotsHolding lines
    ((∃ r ∈ s.intake, e.prior.holds r = true) → (u.gatherServe p e).1.gather = .priorWait p) ∧
    ((∀ r ∈ s.intake, e.prior.holds r = false) →
      (u.gatherServe p e).1.gather = (if slots = [] then .reading p (ReadJob.start lines) else .slotWait p slots) ∧
      (u.gatherServe p e).2 = slots) := by
  intro lines slots
  have hempty : e.prior.emptyIn u.intake = true ↔ ∀ r ∈ s.intake, e.prior.holds r = false := by
    rw [PriorSet.emptyIn_iff, hintake]
  have hlines : u.entryFootprint e = lines := by
    simp only [State.entryFootprint, State.aperture, hapertures, lines]
  have hholding : u.slotsHolding lines = slots := by
    simp only [State.slotsHolding, State.slot, hslots, slots]
  refine ⟨fun ⟨r, hr, hheld⟩ => ?_, fun hnone => ?_⟩
  · rw [State.gatherServe_of_waiting u p e fun h => by
      have hnot := hempty.mp h r hr
      rw [hheld] at hnot
      cases hnot]
  · rw [State.gatherServe_of_empty u p e (hempty.mpr hnone), State.gatherSnapshot, hlines, hholding]
    simp only [List.isEmpty_iff, and_self]

/-- With an entry to go on with, the engine names the slots of its snapshot. -/
theorem State.gatherProgress_snapshot (s : State) (p : PlaceIdx) (e : Entry) (hplace : s.place p = some e)
    (hg : (s.gather = .idle ∧ s.queuedOrder.head? = some p) ∨ s.gather = .priorWait p)
    (hprior : ∀ r ∈ s.intake, e.prior.holds r = false) :
    s.gatherProgress.2 = s.slotsHolding ((s.aperture e.aperture).fields.footprint e.address e.beats) := by
  rcases hg with ⟨hidle, hhead⟩ | hwait
  · obtain ⟨rest, hrest⟩ := List.head?_eq_some_iff.mp hhead
    rw [State.gatherProgress_takes s p rest e hidle hrest hplace]
    exact ((s.gatherServe_exact (State.setPlace { s with queuedOrder := rest } p
      (some { e with state := .gathering })) p e rfl rfl rfl).2 hprior).2
  · rw [State.gatherProgress_priorWait s p e hwait hplace]
    exact ((s.gatherServe_exact s p e rfl rfl rfl).2 hprior).2

/-- In any other case the engine names none. -/
theorem State.gatherProgress_nothing (s : State)
    (h : ∀ p e, s.place p = some e → ((s.gather = .idle ∧ s.queuedOrder.head? = some p) ∨ s.gather = .priorWait p) →
      ¬ ∀ r ∈ s.intake, e.prior.holds r = false) : s.gatherProgress.2 = [] := by
  have waits : ∀ (u : State) (p : PlaceIdx) (e : Entry), u.intake = s.intake →
      ¬ (∀ r ∈ s.intake, e.prior.holds r = false) → (u.gatherServe p e).2 = [] := by
    intro u p e hintake hnot
    rw [State.gatherServe_of_waiting u p e (by rw [PriorSet.emptyIn_iff, hintake]; exact hnot)]
  cases hg : s.gather with
  | idle =>
    cases ho : s.queuedOrder with
    | nil => simp only [State.gatherProgress, hg, ho]
    | cons p rest =>
      cases hp : s.place p with
      | none => rw [State.gatherProgress_gone s p rest hg ho hp]
      | some e =>
        rw [State.gatherProgress_takes s p rest e hg ho hp]
        exact waits _ p e rfl (h p e hp (.inl ⟨hg, by rw [ho]; rfl⟩))
  | priorWait p =>
    cases hp : s.place p with
    | none => rw [State.gatherProgress_lost s p (.inl hg) hp]
    | some e =>
      rw [State.gatherProgress_priorWait s p e hg hp]
      exact waits s p e rfl (h p e hp (.inr hg))
  | slotWait p snapshot =>
    cases hp : s.place p with
    | none => rw [State.gatherProgress_lost s p (.inr ⟨snapshot, hg⟩) hp]
    | some e =>
      rw [State.gatherProgress_slotWait s p snapshot e hg hp]
      split <;> rfl
  | reading p job => simp only [State.gatherProgress, hg]
  | cancelWait p job => simp only [State.gatherProgress, hg]
  | immediate job buffer => simp only [State.gatherProgress, hg]

/-! ### Closing follows the open order (R87 to R89, R99) -/

/-- Settles O31: the closings of `State.closeFor_exact`, and the causes of `State.endCauses`. -/
theorem closingFollowsTheOpenOrder : Obligations.ClosingFollowsTheOpenOrder := by
  constructor
  · intro s causes hlaw t order names named closes caught
    obtain ⟨hclosed, heq⟩ := s.closeFor_exact causes hlaw
    have hnames : ∀ k, named k = (reasonFor causes k).isSome := fun k => (reasonFor_isSome causes k).symm
    refine ⟨fun k hk => ?_, fun k hk => ?_, heq, fun j hj c => ⟨wholeBytes_getLsbD c j hj, partBytes_getLsbD c j hj⟩⟩
    · refine s.closeFor_slot_of_not_named causes k ?_
      by_cases hopen : k ∈ s.openOrder
      · have hnot : named k = false := Bool.eq_false_of_not_eq_true fun h => hk ⟨hopen, h⟩
        rw [hnames] at hnot
        exact .inr (by simpa using hnot)
      · exact .inl hopen
    · obtain ⟨hopen, hnamed⟩ := hk
      rw [hnames, Option.isSome_iff_exists] at hnamed
      obtain ⟨r, hr⟩ := hnamed
      have hslot : t.slot k = (s.slot k).closed r (s.fenceCatches k) := hclosed k r hopen hr
      rw [hslot]
      refine ⟨reasonFor_some causes k r hr, rfl, rfl, ?_, rfl, rfl, rfl, rfl, rfl, rfl⟩
      show ((s.slot k).mark || s.fenceCatches k) = true ↔ _
      rw [Bool.or_eq_true, State.fenceCatches_iff]
  · intro s causes t guards gathers
    obtain ⟨hslots, hopens, hflushes, hintake, -⟩ := s.settle_fields causes
    refine ⟨s.guardProgress.2, s.gatherProgress.2, fun e he => ?_, fun hnone => ?_, fun p e he => ?_, fun hnone => ?_,
      ?_, fun hlaw hquiescing hempty => ?_⟩
    · obtain ⟨hhead, hstate, ps, hps, hprior⟩ := he
      exact s.guardProgress_snapshot e ps hhead hstate hps hprior
    · exact s.guardProgress_nothing fun e ps hhead hstate hps hprior => hnone ⟨e, hhead, hstate, ps, hps, hprior⟩
    · obtain ⟨hplace, hengine, hprior⟩ := he
      exact s.gatherProgress_snapshot p e hplace hengine hprior
    · exact s.gatherProgress_nothing fun p e hplace hengine hprior => hnone ⟨p, e, hplace, hengine, hprior⟩
    · rw [← s.restartDemand_eq]
      exact ⟨hslots, hopens, hflushes, hintake⟩
    · have hdemand : s.restartDemand = s.openOrder := by rw [s.restartDemand_eq, if_pos ⟨hquiescing, hempty⟩]
      refine ⟨?_, fun k hopen => ?_⟩
      · show (s.settle causes).openOrder = []
        obtain ⟨-, heq⟩ := s.closeFor_exact (s.endCauses causes) hlaw
        rw [hopens, heq, List.filter_eq_nil_iff]
        intro k hk
        obtain ⟨r, hr⟩ := s.endCauses_named causes k (.inl (hdemand ▸ hk))
        dsimp only
        rw [← reasonFor_isSome, hr]
        simp
      · have hk : k ∈ s.restartDemand := hdemand ▸ (hlaw.openList k).mpr hopen
        have hne : (s.slot k).state ≠ .free := by rw [hopen]; simp
        obtain ⟨r, hr⟩ := s.endCauses_named causes k (.inl hk)
        refine ⟨(hlaw.settle_flushing causes k hne hr).1, fun hnot => ?_⟩
        have hrestart := s.reasonFor_endCauses causes k hnot
        rw [if_pos hk] at hrestart
        exact (hlaw.settle_flushing causes k hne hrestart).2 hopen

/-! ### The head's step (R133, R136, R137) -/

section HeadStep

variable (s : State) (e : ForwardEntry)

theorem State.headStep_unguarded (he : e.state = .behind) (hp : e.prior = none) :
    (s.headStep e).1 = { e with state := .issuing } := by
  simp only [State.headStep, he, hp]

theorem State.headStep_waits (ps : PriorSet) (he : e.state = .behind ∨ e.state = .guardPrior)
    (hp : e.prior = some ps) (hi : ∃ r ∈ s.intake, ps.holds r = true) :
    (s.headStep e).1 = { e with state := .guardPrior } := by
  have hq : ps.emptyIn s.intake = false := Bool.eq_false_of_not_eq_true fun h => by
    obtain ⟨r, hr, hheld⟩ := hi
    rw [(PriorSet.emptyIn_iff ps s.intake).mp h r hr] at hheld
    cases hheld
  rcases he with he | he
  · simp [State.headStep, he, hp, hq]
  · have hstep : s.headStep e = (e, []) := by simp [State.headStep, he, hp, hq]
    rw [hstep, ← he]

theorem State.headStep_snapshot (ps : PriorSet) (he : e.state = .behind ∨ e.state = .guardPrior)
    (hp : e.prior = some ps) (hi : ∀ r ∈ s.intake, ps.holds r = false) :
    (s.headStep e).1 = { e with
      state := if s.slotsHolding (linesOfRange e.address e.beats) = [] then .issuing else .guardSlots
      snapshot := s.slotsHolding (linesOfRange e.address e.beats) } := by
  have hq := (PriorSet.emptyIn_iff ps s.intake).mpr hi
  rcases he with he | he <;> simp [State.headStep, he, hp, hq]

theorem State.headStep_guardSlots (he : e.state = .guardSlots) :
    (s.headStep e).1 = if e.snapshot = [] then { e with state := .issuing } else e := by
  simp only [State.headStep, he, List.isEmpty_iff]
  split <;> rfl

theorem State.headStep_issues (he : e.state = .issuing ∨ e.state = .returning) : (s.headStep e).1 = e := by
  rcases he with he | he <;> simp only [State.headStep, he]

end HeadStep

theorem State.settle_forward_cons (s : State) (causes : List Cause) (e : ForwardEntry) (rest : List ForwardEntry)
    (h : s.forward = e :: rest) : (s.settle causes).forward = (s.headStep e).1 :: rest := by
  obtain ⟨-, -, -, -, hforward, -⟩ := s.settle_fields causes
  rw [hforward, State.guardProgress, h]

/-! ### The engine's step at the end of an event -/

/-- The gather engine goes on with the entry in place `p` at the end of an event (R118, R119). -/
def State.ServesAtEnd (s : State) (causes : List Cause) (p : PlaceIdx) (e : Entry) : Prop :=
  let t := s.settle causes
  let lines := (s.aperture e.aperture).fields.footprint e.address e.beats
  let slots := s.slotsHolding lines
  ((∃ r ∈ s.intake, e.prior.holds r = true) → t.gather = .priorWait p) ∧
  ((∀ r ∈ s.intake, e.prior.holds r = false) →
    t.gather = (if slots = [] then .reading p (ReadJob.start lines) else .slotWait p slots) ∧
    (∀ k, k ∈ slots ↔ (s.slot k).state ≠ .free ∧ (s.slot k).line ∈ lines) ∧
    ∀ k ∈ slots, (t.slot k).state.flushing ∧
      ((s.slot k).state = .opened → (∀ c ∈ causes, k ∉ c.slots) → s.partState ≠ .quiescing →
        (t.slot k).reason = .gather ∨ (t.slot k).reason = .guard))

theorem State.restartDemand_of_ne (s : State) (h : s.partState ≠ .quiescing) : s.restartDemand = [] := by
  rw [s.restartDemand_eq, if_neg fun hq => h hq.1]

theorem State.servesAtEnd_of_progress {s u : State} (hlaw : s.SlotLaw) (causes : List Cause) (p : PlaceIdx) (e : Entry)
    (hprogress : s.gatherProgress = u.gatherServe p e) (hintake : u.intake = s.intake) (hslots : u.slots = s.slots)
    (hapertures : u.apertures = s.apertures) : s.ServesAtEnd causes p e := by
  obtain ⟨-, -, -, -, -, hgather, -, -⟩ := s.settle_fields causes
  obtain ⟨hwaits, hserves⟩ := s.gatherServe_exact u p e hintake hslots hapertures
  rw [hprogress] at hgather
  refine ⟨fun hheld => hgather.trans (hwaits hheld), fun hprior => ?_⟩
  obtain ⟨hengine, hnamed⟩ := hserves hprior
  refine ⟨hgather.trans hengine, s.mem_slotsHolding _, fun k hk => ?_⟩
  have hne : (s.slot k).state ≠ .free := ((s.mem_slotsHolding _ k).mp hk).1
  have hk' : k ∈ s.gatherProgress.2 := by rw [hprogress, hnamed]; exact hk
  obtain ⟨r, hr⟩ := s.endCauses_named causes k (.inr (.inr hk'))
  refine ⟨(hlaw.settle_flushing causes k hne hr).1, fun hopen hnot hquiescing => ?_⟩
  have hreason := s.reasonFor_endCauses causes k hnot
  rw [s.restartDemand_of_ne hquiescing, if_neg List.not_mem_nil] at hreason
  by_cases hguard : k ∈ s.guardProgress.2
  · rw [if_pos hguard] at hreason
    exact .inr ((hlaw.settle_flushing causes k hne hreason).2 hopen)
  · rw [if_neg hguard, if_pos hk'] at hreason
    exact .inl ((hlaw.settle_flushing causes k hne hreason).2 hopen)

/-- The slots of the head's snapshot are flushing at the end of its event (R137). -/
theorem State.SlotLaw.guard_snapshot {s : State} (h : s.SlotLaw) (causes : List Cause) (k : SlotIdx)
    (hne : (s.slot k).state ≠ .free) (hk : k ∈ s.guardProgress.2) : ((s.settle causes).slot k).state.flushing ∧
      ((s.slot k).state = .opened → (∀ c ∈ causes, k ∉ c.slots) → s.partState ≠ .quiescing →
        ((s.settle causes).slot k).reason = .guard) := by
  obtain ⟨r, hr⟩ := s.endCauses_named causes k (.inr (.inl hk))
  refine ⟨(h.settle_flushing causes k hne hr).1, fun hopen hnot hquiescing => ?_⟩
  have hreason := s.reasonFor_endCauses causes k hnot
  rw [s.restartDemand_of_ne hquiescing, if_neg List.not_mem_nil, if_pos hk] at hreason
  exact (h.settle_flushing causes k hne hreason).2 hopen

/-- Settles O36: the head's step and the engine's, state by state. -/
theorem settlingAdvancesHeadAndGather : Obligations.SettlingAdvancesHeadAndGather := by
  constructor
  · intro s causes e rest hlaw hforward t slots issues
    have hsettled : t.forward = (s.headStep e).1 :: rest := s.settle_forward_cons causes e rest hforward
    refine ⟨s.mem_slotsHolding _, fun he hp => ?_, fun ps he hp => ⟨fun hheld => ?_, fun hprior => ⟨?_, fun k hk => ?_⟩⟩,
      fun he => ⟨fun hempty => ?_, fun hnonempty => ?_⟩, fun he => ?_⟩
    · exact hsettled.trans (by rw [s.headStep_unguarded e he hp])
    · rw [hsettled, s.headStep_waits e ps he hp hheld]
    · rw [hsettled, s.headStep_snapshot e ps he hp hprior]
    · refine hlaw.guard_snapshot causes k ((s.mem_slotsHolding _ k).mp hk).1 ?_
      rw [s.guardProgress_snapshot e ps (by rw [hforward]; rfl) he hp hprior]
      exact hk
    · exact hsettled.trans (by rw [s.headStep_guardSlots e he, if_pos hempty])
    · rw [hsettled, s.headStep_guardSlots e he, if_neg hnonempty, hforward]
    · rw [hsettled, s.headStep_issues e he, hforward]
  · intro s causes hlaw t serves waits
    obtain ⟨-, -, -, -, -, hgather, hplaces, horder⟩ := s.settle_fields causes
    have rests : s.gatherProgress.1 = s → waits := fun h => by
      rw [h] at hgather hplaces horder
      exact ⟨hgather, hplaces, horder⟩
    refine ⟨fun hidle hempty => rests ?_, fun p rest e hidle hqueue hplace => ?_, fun p e hwait hplace => ?_,
      fun p snapshot e hwait hplace => ?_, fun p job buffer hbusy => rests ?_⟩
    · simp only [State.gatherProgress, hidle, hempty]
    · have hprogress := s.gatherProgress_takes p rest e hidle hqueue hplace
      obtain ⟨g, hserve⟩ :=
        (State.setPlace { s with queuedOrder := rest } p (some { e with state := .gathering })).gatherServe_frame p e
      rw [hprogress, hserve] at hplaces horder
      refine ⟨horder, ?_, fun q hq => ?_, State.servesAtEnd_of_progress hlaw causes p e hprogress rfl rfl rfl⟩
      · rw [State.place_congr _ _ hplaces]
        exact State.place_setPlace_self _ p _
      · rw [State.place_congr _ _ hplaces]
        exact State.place_setPlace_of_ne _ p q _ (Ne.symm hq)
    · have hprogress := s.gatherProgress_priorWait p e hwait hplace
      obtain ⟨g, hserve⟩ := s.gatherServe_frame p e
      rw [hprogress, hserve] at hplaces horder
      exact ⟨State.servesAtEnd_of_progress hlaw causes p e hprogress rfl rfl rfl, hplaces, horder⟩
    · have hprogress := s.gatherProgress_slotWait p snapshot e hwait hplace
      by_cases hempty : snapshot = []
      · rw [hprogress, if_pos (List.isEmpty_iff.mpr hempty)] at hgather hplaces horder
        exact ⟨fun _ => hgather, fun h => absurd hempty h, hplaces, horder⟩
      · rw [hprogress, if_neg (mt List.isEmpty_iff.mp hempty)] at hgather hplaces horder
        exact ⟨fun h => absurd h hempty, fun _ => hgather, hplaces, horder⟩
    · rcases hbusy with hbusy | hbusy | hbusy <;> simp only [State.gatherProgress, hbusy]

end Sys2Proof.Machine
end

section
/-! SUPPORT. The completions (R91 to R94, R115, R120, R121, R129, R140, R141, R151, R152), in the words of the
statements. -/

namespace Sys2Proof.Machine

/-! ### A completion leaves its own tag FREE (R151) -/

theorem State.settle_tags (s : State) (causes : List Cause) : (s.settle causes).tags = s.tags := by
  obtain ⟨-, -, -, -, -, -, -, -, -, htags, -⟩ := s.settle_keeps causes
  exact htags

theorem State.afterSlot_tags (s : State) (freed : Bool) (line : Option Addr) : (s.afterSlot freed line).tags = s.tags := by
  obtain ⟨_, _, _, _, h⟩ := s.scatterStep_frame
  unfold State.afterSlot
  split
  · rw [State.settle_tags, h]
  · exact s.settle_tags []

theorem State.raiseOn_tags (s : State) (o : MemOutcome) (k : EventKind) (i : Option ApertureIdx) (a : Addr)
    (q : Option Requester) : (s.raiseOn o k i a q).tags = s.tags := by
  obtain ⟨_, h⟩ := s.raiseOn_frame o k i a q
  rw [h]

theorem State.noteFault_tags (s : State) (x : Slot) : (s.noteFault x).tags = s.tags := by
  obtain ⟨_, h⟩ := s.noteFault_frame x
  rw [h]

theorem State.afterCancel_tags (s : State) : s.afterCancel.tags = s.tags := by
  obtain ⟨_, h, -⟩ := s.afterCancel_eq
  rw [h]

theorem State.completeForwardRead_tags (s : State) (c : Completion) (rec : TagRecord) :
    (s.completeForwardRead c rec).tags = s.tags := by
  unfold State.completeForwardRead
  dsimp only
  split
  · rfl
  · split
    · rw [State.settle_tags]
      exact s.raiseOn_tags ..
    · exact s.raiseOn_tags ..

theorem State.completePosted_tags (s : State) (c : Completion) (rec : TagRecord) :
    (s.completePosted c rec).tags = s.tags := by
  unfold State.completePosted
  split
  · exact s.settle_tags []
  · rw [State.settle_tags, State.raiseOn_tags]

theorem State.completeMerge_tags (s : State) (k : SlotIdx) (c : Completion) : (s.completeMerge k c).tags = s.tags := by
  unfold State.completeMerge
  dsimp only
  split
  · exact State.afterSlot_tags ..
  · split
    · rw [State.afterSlot_tags]
      exact State.noteFault_tags ..
    · rw [State.afterSlot_tags]
      exact State.noteFault_tags ..

theorem State.completeWrite_tags (s : State) (k : SlotIdx) (c : Completion) : (s.completeWrite k c).tags = s.tags := by
  unfold State.completeWrite
  dsimp only
  split
  · exact State.afterSlot_tags ..
  · rw [State.afterSlot_tags]
    exact State.noteFault_tags ..

theorem State.completeImmediate_tags (s : State) (c : Completion) (rec : TagRecord) :
    (s.completeImmediate c rec).tags = s.tags := by
  unfold State.completeImmediate
  dsimp only
  split
  · split
    · split
      · rw [State.settle_tags]
        exact s.raiseOn_tags ..
      · exact s.raiseOn_tags ..
    · rfl
  · rfl

theorem State.completeEntry_tags (s : State) (p : PlaceIdx) (c : Completion) (rec : TagRecord) :
    (s.completeEntry p c rec).tags = s.tags := by
  unfold State.completeEntry
  dsimp only
  split
  · rfl
  · split
    · split
      · rw [State.settle_tags]
        exact s.raiseOn_tags ..
      · exact s.raiseOn_tags ..
    · split
      · rw [State.settle_tags, State.afterCancel_tags]
        exact s.raiseOn_tags ..
      · exact s.raiseOn_tags ..
    all_goals exact s.raiseOn_tags ..

/-- A completion with an OUTSTANDING tag makes that tag FREE and leaves the others (R151). -/
theorem State.complete_tags (s : State) (c : Completion) (r : TagRecord) (h : s.tag c.tag = some r) :
    (s.complete c).tags = s.tags.set c.tag none := by
  rw [← s.setTag_tags]
  cases ho : r.owner with
  | readHead => rw [s.complete_readHead c r h ho, State.completeForwardRead_tags]
  | outstandingWrite => rw [s.complete_outstandingWrite c r h ho, State.completePosted_tags]
  | slot k =>
    cases hk : r.kind with
    | read => rw [s.complete_slotRead c r k h ho hk, State.completeMerge_tags]
    | write => rw [s.complete_slotWrite c r k h ho hk, State.completeWrite_tags]
  | immediateRead => rw [s.complete_immediateRead c r h ho, State.completeImmediate_tags]
  | place p => rw [s.complete_place c r p h ho, State.completeEntry_tags]

/-- Settles O38: every row is `State.complete`, which reads the tag. -/
theorem completionsFollowTheirTag : Obligations.CompletionsFollowTheirTag := by
  intro s c
  refine ⟨?_, fun hfree => congrArg _ (s.complete_of_free c hfree), fun r hr => ⟨s.complete c, rfl, ?_, fun g hg => ?_⟩⟩
  · simp only [List.forall_mem_cons]
    exact ⟨rfl, rfl, rfl, rfl, rfl, rfl, rfl, by simp⟩
  · rw [State.tag_congr _ (s.setTag c.tag none) (s.complete_tags c r hr), State.tag_setTag, if_pos rfl]
  · rw [State.tag_congr _ (s.setTag c.tag none) (s.complete_tags c r hr), State.tag_setTag, if_neg (Ne.symm hg)]

/-! ### Merge reads and line writes (R91 to R94, R100) -/

/-- What the engine waits for when a slot leaves MERGING or is freed (R70). -/
def State.ScatterGoesOn (s : State) (freed : Bool) (line : Addr) : Prop :=
  (s.scatter.state = .waitSlot ∧ freed = true) ∨ (s.scatter.state = .waitMerge ∧ s.cursorLine = some line)

theorem State.cursorLine_congr {s v : State} (hintake : v.intake = s.intake) (hscatter : v.scatter = s.scatter)
    (hapertures : v.apertures = s.apertures) : v.cursorLine = s.cursorLine := by
  simp only [State.cursorLine, State.aperture, hintake, hscatter, hapertures]

/-- After a merge read the engine goes on exactly if it waited for the line or for the FREE slot (R70). -/
theorem State.afterSlot_of_line {s v : State} (hintake : v.intake = s.intake) (hscatter : v.scatter = s.scatter)
    (hapertures : v.apertures = s.apertures) (freed : Bool) (line : Addr) :
    (s.ScatterGoesOn freed line → v.afterSlot freed (some line) = v.scatterStep.state.settle v.scatterStep.causes) ∧
    (¬ s.ScatterGoesOn freed line → v.afterSlot freed (some line) = v.settle []) := by
  have hcond : ((v.scatter.state = .waitSlot ∧ freed = true) ∨
      (v.scatter.state = .waitMerge ∧ (some line).isSome = true ∧ v.cursorLine = some line)) ↔
        s.ScatterGoesOn freed line := by
    rw [State.ScatterGoesOn, State.cursorLine_congr hintake hscatter hapertures, hscatter]
    simp
  exact ⟨fun h => if_pos (hcond.mpr h), fun h => if_neg (mt hcond.mp h)⟩

/-- After a line write the engine goes on exactly if it waits for a FREE slot (R70). -/
theorem State.afterSlot_freed (v : State) :
    (v.scatter.state ≠ .waitSlot → v.afterSlot true none = v.settle []) ∧
    (v.scatter.state = .waitSlot → v.afterSlot true none = v.scatterStep.state.settle v.scatterStep.causes) :=
  ⟨fun h => if_neg (by simp [h]), fun h => if_pos (.inl ⟨h, rfl⟩)⟩

/-- Memory's values at the uncovered bits of the partly covered bytes (R91). -/
theorem Slot.merged_getLsbD (x : Slot) (l : LineData) (q : Nat) (hq : q < 512) : (x.merged l).data.getLsbD q =
    if (partBytes x.coverage).getLsbD (q / 8) && !x.coverage.getLsbD q then l.getLsbD q else x.data.getLsbD q := by
  simp only [Slot.merged, BitVec.getLsbD_or, BitVec.getLsbD_and, BitVec.getLsbD_not, bitsOfMask_getLsbD, hq,
    decide_true, Bool.true_and]
  cases (partBytes x.coverage).getLsbD (q / 8) && !x.coverage.getLsbD q <;> simp

theorem State.noteFault_same (s : State) (x : Slot) : (s.noteFault x).intake = s.intake ∧
    (s.noteFault x).scatter = s.scatter ∧ (s.noteFault x).apertures = s.apertures := by
  obtain ⟨_, h⟩ := s.noteFault_frame x
  rw [h]
  exact ⟨rfl, rfl, rfl⟩

/-- Settles O32: the merge read's outcome, and whether the engine goes on. -/
theorem mergeReadCompletionMerges : Obligations.MergeReadCompletionMerges := by
  rintro s ⟨tag, outcome, data⟩ line k htag x whole waits completes
  have hexec : exec (.mergeReadCompletion ⟨tag, outcome, data⟩) s =
      .next ((s.setTag tag none).completeMerge k ⟨tag, outcome, data⟩) :=
    congrArg _ (s.complete_slotRead ⟨tag, outcome, data⟩ _ k htag rfl rfl)
  have ends : ∀ (v : State) (freed : Bool), v.intake = s.intake → v.scatter = s.scatter → v.apertures = s.apertures →
      (s.setTag tag none).completeMerge k ⟨tag, outcome, data⟩ = v.afterSlot freed (some x.line) → completes v freed := by
    intro v freed hintake hscatter hapertures heq
    obtain ⟨hgoes, hstays⟩ := State.afterSlot_of_line hintake hscatter hapertures freed x.line
    exact ⟨fun h => by rw [hexec, heq, hgoes h], fun h => by rw [hexec, heq, hstays h]⟩
  refine ⟨?_, ?_⟩
  · rintro rfl
    exact ⟨(x.merged data).data, x.merged_getLsbD data, ends _ false rfl rfl rfl rfl⟩
  · rintro rfl
    intro t u
    obtain ⟨hintake, hscatter, hapertures⟩ := t.noteFault_same x
    refine ⟨fun hwhole => ends _ false hintake hscatter hapertures (if_neg hwhole),
      fun hwhole => ends _ true hintake hscatter hapertures (if_pos hwhole)⟩

/-- Settles O33: the slot is freed, and an engine in WAIT_SLOT goes on. -/
theorem lineWriteCompletionFreesTheSlot : Obligations.LineWriteCompletionFreesTheSlot := by
  rintro s ⟨tag, outcome, data⟩ line k htag x t u w
  have hslots : u.slots = s.slots ∧ u.scatter = s.scatter := by
    cases outcome with
    | ok => exact ⟨rfl, rfl⟩
    | fault =>
      obtain ⟨_, h⟩ := (t.raise .writeFault (some x.aperture) x.line none).noteFault_frame x
      have hu : u = (t.raise .writeFault (some x.aperture) x.line none).noteFault x := rfl
      rw [hu, h]
      exact ⟨rfl, rfl⟩
  have hexec : exec (.lineWriteCompletion ⟨tag, outcome, data⟩) s = .next (w.afterSlot true none) := by
    refine (congrArg _ (s.complete_slotWrite ⟨tag, outcome, data⟩ _ k htag rfl rfl)).trans ?_
    cases outcome <;> rfl
  obtain ⟨hstays, hgoes⟩ := w.afterSlot_freed
  have hscatter : w.scatter = s.scatter := hslots.2
  rw [hscatter] at hstays hgoes
  refine ⟨u.freeSlot_slot k, fun j hj => ?_, fun h => ?_, fun h => ?_⟩
  · rw [u.freeSlot_slot_ne k j (Ne.symm hj), State.slot_congr u s hslots.1]
  · rw [hexec, hstays h]
  · rw [hexec, hgoes h]

/-! ### Pass-through completions (R140, R141) -/

theorem State.completePosted_of_find {s : State} {c : Completion} {rec : TagRecord} {w : OutstandingWrite}
    (h : s.posted.find? (fun v => v.tag == c.tag) = some w) : s.completePosted c rec =
      ({ s with posted := s.posted.filter (fun v => v.tag != c.tag) }.raiseOn c.outcome .writeFault none rec.line
        (some w.requester)).settle [] := by
  simp only [State.completePosted, h]

theorem State.completeForwardRead_cons {s : State} {c : Completion} {rec : TagRecord} {e : ForwardEntry}
    {rest : List ForwardEntry} (h : s.forward = e :: rest) : s.completeForwardRead c rec =
      if (e.completed c rec.line).state = .returning ∧ anyGranted (e.completed c rec.line).lines = false then
        ({ s.raiseOn c.outcome .readFault none rec.line (some e.requester) with
          forward := rest, port := .idle }.answer e.requester (e.completed c rec.line).readAnswer).settle []
      else { s.raiseOn c.outcome .readFault none rec.line (some e.requester) with
        forward := e.completed c rec.line :: rest } := by
  simp only [State.completeForwardRead, h]

theorem anyGranted_eq_false (lines : List ForwardLine) :
    anyGranted lines = false ↔ ∀ l ∈ lines, ∀ g, l.mark ≠ .granted g := by
  simp only [anyGranted, List.any_eq_false]
  refine forall₂_congr fun l _ => ?_
  cases l.mark <;> simp

/-- The bytes of the line that the read addresses are kept, the buffer's other bits stay (R140). -/
theorem keepLine_getLsbD (a : Addr) (beats : Nat) (line : Addr) (l : LineData) (buffer : ReadBuffer) (q : Nat)
    (hq : q < 1024) :
    let kept := q / 8 < 8 * beats ∧ line.toNat ≤ a.toNat + q / 8 ∧ a.toNat + q / 8 < line.toNat + 64
    (kept → (keepLine a beats line l buffer).bits.getLsbD q =
        l.getLsbD (8 * (a.toNat + q / 8 - line.toNat) + q % 8) ∧
      (keepLine a beats line l buffer).filled.getLsbD q = true) ∧
    (¬ kept → (keepLine a beats line l buffer).bits.getLsbD q = buffer.bits.getLsbD q ∧
      (keepLine a beats line l buffer).filled.getLsbD q = buffer.filled.getLsbD q) := by
  intro kept
  have hhit : (decide (q / 8 < 8 * beats) && decide (line.toNat ≤ a.toNat + q / 8) &&
      decide (a.toNat + q / 8 < line.toNat + 64)) = decide kept := by
    simp only [kept, Bool.decide_and, Bool.and_assoc]
  have hmod : q % 8 < 8 := Nat.mod_lt _ (by omega)
  refine ⟨fun hkept => ?_, fun hkept => ?_⟩
  · simp only [keepLine, bitsOf_getLsbD, hhit, hkept, hq, decide_true, Bool.true_and, Bool.true_or, if_true,
      lineByte_getLsbD, hmod, and_self]
  · simp only [keepLine, bitsOf_getLsbD, hhit, hkept, hq, decide_true, decide_false, Bool.true_and, Bool.false_or,
      Bool.false_eq_true, if_false, and_self]

/-- Settles O39: the write leaves the list of outstanding ones; the read's line is kept, or its fault recorded. -/
theorem passThroughCompletionsServeTheirOwners : Obligations.PassThroughCompletionsServeTheirOwners := by
  constructor
  · rintro s ⟨tag, outcome, data⟩ line w htag hfind
    have hcomplete := (s.complete_outstandingWrite ⟨tag, outcome, data⟩ _ htag rfl).trans
      (State.completePosted_of_find (w := w) hfind)
    refine congrArg Host.Outcome.next (hcomplete.trans ?_)
    cases outcome <;> rfl
  · rintro s ⟨tag, outcome, data⟩ line e rest htag hforward
    have hcomplete := (s.complete_readHead ⟨tag, outcome, data⟩ _ htag rfl).trans
      (State.completeForwardRead_cons (e := e) (rest := rest) hforward)
    refine ⟨(e.completed ⟨tag, outcome, data⟩ line).buffer, ?_, ?_, ?_⟩
    · rintro rfl
      rfl
    · rintro rfl q hq
      exact keepLine_getLsbD e.address e.beats line data e.buffer q hq
    · intro e' t done
      have he : e.completed ⟨tag, outcome, data⟩ line = e' := by cases outcome <;> rfl
      have ht : State.raiseOn (s.setTag tag none) outcome .readFault none line (some e.requester) = t := by
        cases outcome <;> rfl
      have hdone : (e'.state = .returning ∧ anyGranted e'.lines = false) ↔ done := by rw [anyGranted_eq_false]
      dsimp only at hcomplete
      rw [he, ht] at hcomplete
      exact ⟨fun h => congrArg Host.Outcome.next (hcomplete.trans (if_neg (mt hdone.mp h))),
        fun h => congrArg Host.Outcome.next (hcomplete.trans (if_pos (hdone.mpr h)))⟩

/-! ### Completions of the gather engine (R115, R120, R121, R129) -/

theorem ReadJob.ended_iff (j : ReadJob) : j.ended = true ↔ j.outstanding = [] ∧ j.unissued = [] := by
  simp [ReadJob.ended]

theorem ReadJob.completedOne_eq (j : ReadJob) (g : Tag) (o : MemOutcome) : j.completedOne g o = { j with
    outstanding := j.outstanding.erase g
    completed := j.completed + 1
    unissued := if o = .fault then [] else j.unissued
    faulted := j.faulted || decide (o = .fault) } := by
  cases o <;> rfl

/-- The immediate read's buffer after a line has come back (R115). -/
def Fields.lineKept (f : Fields) (r : HeldRead) (c : Completion) (line : Addr) (buffer : ReadBuffer) : ReadBuffer :=
  match c.outcome with
  | .ok => f.fillForward (f.viewOffset r.address) (8 * r.beats) line c.line buffer
  | .fault => buffer

theorem State.completeImmediate_of {s : State} {c : Completion} {rec : TagRecord} {job : ReadJob} {buffer : ReadBuffer}
    {r : HeldRead} {i : ApertureIdx} (hg : s.gather = .immediate job buffer) (hp : s.port = .holding r)
    (hs : r.service = .immediate i) : s.completeImmediate c rec =
      if (job.completedOne c.tag c.outcome).ended then
        ({ s.raiseOn c.outcome .readFault (some i) rec.line (some r.requester) with
          gather := .idle, port := .idle }.answer r.requester
          (if (job.completedOne c.tag c.outcome).faulted then .error .fault
            else .data (((s.aperture i).fields.lineKept r c rec.line buffer).bytes (8 * r.beats)))).settle []
      else { s.raiseOn c.outcome .readFault (some i) rec.line (some r.requester) with
        gather := .immediate (job.completedOne c.tag c.outcome)
          ((s.aperture i).fields.lineKept r c rec.line buffer) } := by
  simp only [State.completeImmediate, hg, hp, hs]
  rfl

/-- Settles O40: the job with one read completed decides whether the read has ended. -/
theorem immediateReadCompletionServesTheRead : Obligations.ImmediateReadCompletionServesTheRead := by
  rintro s ⟨tag, outcome, data⟩ line job buffer r i htag hgather hport hservice t f job' buffer'
  have hcomplete := (s.complete_immediateRead ⟨tag, outcome, data⟩ _ htag rfl).trans
    (State.completeImmediate_of (job := job) (buffer := buffer) (r := r) (i := i) hgather hport hservice)
  have ht : State.raiseOn (s.setTag tag none) outcome .readFault (some i) line (some r.requester) = t := by
    cases outcome <;> rfl
  have hjob : job.completedOne tag outcome = job' := job.completedOne_eq tag outcome
  have hbuffer : f.lineKept r ⟨tag, outcome, data⟩ line buffer = buffer' := by cases outcome <;> rfl
  have hf : ((s.setTag tag none).aperture i).fields = f := rfl
  dsimp only at hcomplete
  rw [ht, hjob, hf, hbuffer] at hcomplete
  refine ⟨fun hmore => congrArg Host.Outcome.next (hcomplete.trans (if_neg ?_)),
    fun hout hunissued => congrArg Host.Outcome.next (hcomplete.trans (if_pos ?_))⟩
  · rw [ReadJob.ended_iff]
    rintro ⟨hout, hunissued⟩
    exact hmore.elim (fun h => h hout) (fun h => h hunissued)
  · exact (ReadJob.ended_iff job').mpr ⟨hout, hunissued⟩

/-- The entry after a line has come back (R120). -/
def Entry.lineKept (e : Entry) (f : Fields) (c : Completion) (line : Addr) : Entry :=
  match c.outcome with
  | .ok => e.filled f line c.line
  | .fault => e

theorem State.completeEntry_of_reading {s : State} {p : PlaceIdx} {c : Completion} {rec : TagRecord} {e : Entry}
    {q : PlaceIdx} {job : ReadJob} (hp : s.place p = some e) (hg : s.gather = .reading q job) :
    s.completeEntry p c rec = if (job.completedOne c.tag c.outcome).ended then
      { (s.raiseOn c.outcome .readFault (some e.aperture) rec.line (some e.requester)).setPlace p
          (some ((e.lineKept (s.aperture e.aperture).fields c rec.line).gathered
            (job.completedOne c.tag c.outcome).faulted (s.now + s.timing.discardLimit))) with
        gather := .idle }.settle []
      else { (s.raiseOn c.outcome .readFault (some e.aperture) rec.line (some e.requester)).setPlace p
          (some (e.lineKept (s.aperture e.aperture).fields c rec.line)) with
        gather := .reading q (job.completedOne c.tag c.outcome) } := by
  simp only [State.completeEntry, hp, hg]
  rfl

theorem State.completeEntry_of_cancelWait {s : State} {p : PlaceIdx} {c : Completion} {rec : TagRecord} {e : Entry}
    {q : PlaceIdx} {job : ReadJob} (hp : s.place p = some e) (hg : s.gather = .cancelWait q job) :
    s.completeEntry p c rec = if job.outstanding.erase c.tag = [] then
      ((s.raiseOn c.outcome .readFault (some e.aperture) rec.line (some e.requester)).freePlace p).afterCancel.settle []
      else { s.raiseOn c.outcome .readFault (some e.aperture) rec.line (some e.requester) with
        gather := .cancelWait q (job.completedOne c.tag c.outcome) } := by
  simp only [State.completeEntry, hp, hg, ReadJob.completedOne, List.isEmpty_iff]

/-- The engine's state after CANCEL_WAIT (R129). -/
theorem State.afterCancel_gather (s : State) : ∃ next : Gather, s.afterCancel = { s with gather := next } ∧
    (∀ r i, s.port = .holding r → r.service = .immediate i → next = .immediate
      (ReadJob.start ((s.aperture i).fields.footprint r.address r.beats)) ReadBuffer.blank) ∧
    (¬ s.holdsImmediate → next = .idle) := by
  unfold State.afterCancel
  cases hwaiting : s.waitingImmediate with
  | none =>
    refine ⟨_, rfl, fun r i hport hservice => ?_, fun _ => rfl⟩
    simp [State.waitingImmediate, hport, hservice] at hwaiting
  | some held =>
    obtain ⟨r, i⟩ := held
    have hheld : s.port = .holding r ∧ r.service = .immediate i := by
      unfold State.waitingImmediate at hwaiting
      split at hwaiting
      · cases hwaiting
      · rename_i r' hport
        split at hwaiting
        · rename_i j hservice
          cases hwaiting
          exact ⟨hport, hservice⟩
        · cases hwaiting
    refine ⟨_, rfl, fun r' i' hport hservice => ?_, fun hnot => absurd ⟨r, i, hheld⟩ hnot⟩
    rw [hheld.1] at hport
    cases hport
    rw [hheld.2] at hservice
    cases hservice
    rfl

/-- Settles O41: the entry's job with one read completed decides whether the gather, or the waiting for a cancelled one,
has ended. -/
theorem entryReadCompletionsServeTheEntry : Obligations.EntryReadCompletionsServeTheEntry := by
  constructor
  · rintro s ⟨tag, outcome, data⟩ line p e job htag hplace hgather t f job' e'
    have hcomplete := (s.complete_place ⟨tag, outcome, data⟩ _ p htag rfl).trans
      (State.completeEntry_of_reading (e := e) (q := p) (job := job) hplace hgather)
    have ht : State.raiseOn (s.setTag tag none) outcome .readFault (some e.aperture) line (some e.requester) = t := by
      cases outcome <;> rfl
    have hjob : job.completedOne tag outcome = job' := job.completedOne_eq tag outcome
    have hentry : e.lineKept f ⟨tag, outcome, data⟩ line = e' := by cases outcome <;> rfl
    have hf : ((s.setTag tag none).aperture e.aperture).fields = f := rfl
    dsimp only at hcomplete
    rw [ht, hjob, hf, hentry] at hcomplete
    refine ⟨fun hmore => congrArg Host.Outcome.next (hcomplete.trans (if_neg ?_)),
      fun hout hunissued => congrArg Host.Outcome.next (hcomplete.trans (if_pos ?_))⟩
    · rw [ReadJob.ended_iff]
      rintro ⟨hout, hunissued⟩
      exact hmore.elim (fun h => h hout) (fun h => h hunissued)
    · exact (ReadJob.ended_iff job').mpr ⟨hout, hunissued⟩
  · rintro s ⟨tag, outcome, data⟩ line p e job hlaw htag hplace hgather t
    have hcomplete := (s.complete_place ⟨tag, outcome, data⟩ _ p htag rfl).trans
      (State.completeEntry_of_cancelWait (e := e) (q := p) (job := job) hplace hgather)
    have ht : State.raiseOn (s.setTag tag none) outcome .readFault (some e.aperture) line (some e.requester) = t := by
      cases outcome <;> rfl
    dsimp only at hcomplete
    rw [ht] at hcomplete
    have herase : job.outstanding.erase tag = [] ↔ job.outstanding = [tag] := by
      rw [List.erase_eq_nil_iff, or_iff_right (hlaw.waits p job hgather)]
    refine ⟨fun hmore => ?_, fun hlast => ?_⟩
    · rw [if_neg (mt herase.mp hmore), job.completedOne_eq] at hcomplete
      exact congrArg Host.Outcome.next hcomplete
    · rw [if_pos (herase.mpr hlast)] at hcomplete
      obtain ⟨next, hnext, hwaiting, hidle⟩ := (t.freePlace p).afterCancel_gather
      have hqueued : p ∉ s.queuedOrder := by
        intro hmem
        obtain ⟨d, hd, hstate⟩ := (hlaw.queuedList p).mp hmem
        obtain ⟨d', hd', hstate'⟩ := (hlaw.cancelled p).mpr ⟨job, hgather⟩
        rw [hd] at hd'
        cases hd'
        rw [hstate] at hstate'
        cases hstate'
      have hfreed : ({ t.freePlace p with gather := next } : State) =
          { t with places := s.places.set p none, gather := next } := by
        show ({ t with places := s.places.set p none, queuedOrder := s.queuedOrder.erase p, gather := next } : State) = _
        rw [List.erase_of_not_mem hqueued]
      refine ⟨next, ?_, hwaiting, hidle⟩
      rw [hnext, hfreed] at hcomplete
      exact congrArg Host.Outcome.next hcomplete

end Sys2Proof.Machine
end

section
/-! SUPPORT. GRANT (R90, R115, R120, R135, R139, R146, R150, R154), in the words of the statement. -/

namespace Sys2Proof.Machine

/-! ### The arbiter's choice (R154) -/

theorem Source.next_ne (c : Source) : c.next ≠ c ∧ c.next.next ≠ c := by cases c <;> simp [Source.next]

theorem Source.rotation (c d : Source) : d = c ∨ d = c.next ∨ d = c.next.next := by
  cases c <;> cases d <;> simp [Source.next]

/-- The arbiter chooses no source exactly when none is requesting. -/
theorem State.choice_none (s : State) (h : ∀ src, ¬ s.requesting src = true) : s.choice = none := by
  rw [State.choice, if_neg fun hc => h _ hc.1, if_neg (h _), if_neg (h _), if_neg (h _)]

/-- The three steps of R154, with the allowance that the choice leaves used. -/
theorem State.choice_of_step (s : State) (src : Source) (hmay : s.requesting src = true)
    (h : (src = s.holder ∧ s.used < s.timing.allowance) ∨
      (¬ (s.requesting s.holder = true ∧ s.used < s.timing.allowance) ∧ src = s.holder.next) ∨
      (¬ (s.requesting s.holder = true ∧ s.used < s.timing.allowance) ∧ ¬ s.requesting s.holder.next = true ∧
        src = s.holder.next.next) ∨
      (¬ s.used < s.timing.allowance ∧ ¬ s.requesting s.holder.next = true ∧
        ¬ s.requesting s.holder.next.next = true ∧ src = s.holder)) :
    s.choice = some (src, if src = s.holder ∧ s.used < s.timing.allowance then s.used + 1 else 1) := by
  obtain ⟨hnext, hnext'⟩ := s.holder.next_ne
  unfold State.choice
  rcases h with ⟨rfl, hused⟩ | ⟨hnot, rfl⟩ | ⟨hnot, hfirst, rfl⟩ | ⟨hused, hfirst, hsecond, rfl⟩
  · rw [if_pos ⟨hmay, hused⟩, if_pos ⟨rfl, hused⟩]
  · rw [if_neg hnot, if_pos hmay, if_neg fun hc => hnext hc.1]
  · rw [if_neg hnot, if_neg hfirst, if_pos hmay, if_neg fun hc => hnext' hc.1]
  · rw [if_neg fun hc => hused hc.2, if_neg hfirst, if_neg hsecond, if_pos hmay, if_neg fun hc => hused hc.2]

/-! ### What issuing leaves to the arbiter and the tag table -/

/-- A request of the source has gone out under the tag `g`. -/
def State.IssuedFor (s t : State) (src : Source) (g : Tag) : Prop :=
  t.holder = s.holder ∧ t.used = s.used ∧ ∃ rec, rec.source = src ∧ t.tags = s.tags.set g (some rec)

theorem State.IssuedFor.settle {s t : State} {src : Source} {g : Tag} (h : s.IssuedFor t src g) (causes : List Cause) :
    s.IssuedFor (t.settle causes) src g := by
  obtain ⟨-, -, -, -, -, -, -, -, -, htags, hholder, hused, -⟩ := t.settle_keeps causes
  obtain ⟨hholder', hused', rec, hrec, htags'⟩ := h
  exact ⟨hholder.trans hholder', hused.trans hused', rec, hrec, htags.trans htags'⟩

theorem State.guardedWriteMarks_frame (s : State) (e : ForwardEntry) :
    ∃ places, s.guardedWriteMarks e = { s with places := places } := by
  unfold State.guardedWriteMarks
  split
  · exact ⟨s.places, rfl⟩
  · exact ⟨_, rfl⟩

theorem State.issuedFor_forward (s : State) (g : Tag) (e : ForwardEntry) (rest : List ForwardEntry) (l : ForwardLine) :
    s.IssuedFor (s.issueForward g e rest l) .forward g := by
  unfold State.issueForward
  dsimp only
  split
  · exact ⟨rfl, rfl, ⟨.forward, .read, l.line, .readHead⟩, rfl, rfl⟩
  · split
    · refine State.IssuedFor.settle ?_ []
      obtain ⟨_, h⟩ := State.guardedWriteMarks_frame ({ (s.setTag g
          (some ⟨.forward, .write, l.line, .outstandingWrite⟩)).emit (.memory (.lineWrite g l.line
            (writeLine e.address e.data l.line) (writeMask e.address e.data l.line))) with
        posted := s.posted ++ [OutstandingWrite.mk g l.line e.requester], forward := rest }) e
      rw [h]
      exact ⟨rfl, rfl, ⟨.forward, .write, l.line, .outstandingWrite⟩, rfl, rfl⟩
    · exact ⟨rfl, rfl, ⟨.forward, .write, l.line, .outstandingWrite⟩, rfl, rfl⟩

theorem State.issuedFor_combine (s : State) (g : Tag) (k : SlotIdx) :
    s.IssuedFor (s.issueCombine g k) .combine g := by
  obtain ⟨o, h⟩ := s.issueCombine_eq g k
  rw [h]
  exact ⟨rfl, rfl, ⟨.combine, (s.slot k).state.requestKind, (s.slot k).line, .slot k⟩, rfl, rfl⟩

theorem State.issuedFor_gather (s : State) (g : Tag) (line : Addr) (h : s.gatherOffer = some line) :
    s.IssuedFor (s.issueGather g line) .gather g := by
  unfold State.gatherOffer at h
  unfold State.issueGather
  cases hg : s.gather with
  | reading p job => exact ⟨rfl, rfl, ⟨.gather, .read, line, .place p⟩, rfl, rfl⟩
  | immediate job buffer => exact ⟨rfl, rfl, ⟨.gather, .read, line, .immediateRead⟩, rfl, rfl⟩
  | idle => simp [hg] at h
  | priorWait p => simp [hg] at h
  | slotWait p snapshot => simp [hg] at h
  | cancelWait p job => simp [hg] at h

/-- A source that has a request ready issues it. -/
theorem State.issuedFor_issue (s : State) (src : Source) (g : Tag) (h : s.offers src = true) :
    s.IssuedFor (s.issue src g) src g := by
  cases src with
  | forward =>
    obtain ⟨l, hl⟩ := Option.isSome_iff_exists.mp h
    cases hf : s.forward with
    | nil => simp [State.forwardOffer, hf] at hl
    | cons e rest =>
      rw [s.issue_forward g e rest l hf hl]
      exact s.issuedFor_forward g e rest l
  | combine =>
    obtain ⟨k, hk⟩ := Option.isSome_iff_exists.mp h
    rw [s.issue_combine g k hk]
    exact s.issuedFor_combine g k
  | gather =>
    obtain ⟨line, hline⟩ := Option.isSome_iff_exists.mp h
    rw [s.issue_gather g line hline]
    exact s.issuedFor_gather g line hline

/-! ### What goes out -/

theorem State.execGrant_forward {s : State} {g : Tag} {n : Nat} {e : ForwardEntry} {rest : List ForwardEntry}
    {l : ForwardLine} (hg : s.freeTag = some g) (hc : s.choice = some (.forward, n)) (hf : s.forward = e :: rest)
    (ho : s.forwardOffer = some l) :
    execGrant s = .next (({ s with holder := .forward, used := n } : State).issueForward g e rest l) :=
  (execGrant_of_choice s .forward n g hc hg).trans
    (congrArg _ (({ s with holder := .forward, used := n } : State).issue_forward g e rest l hf ho))

theorem State.execGrant_gather {s : State} {g : Tag} {n : Nat} {line : Addr} (hg : s.freeTag = some g)
    (hc : s.choice = some (.gather, n)) (ho : s.gatherOffer = some line) :
    execGrant s = .next (({ s with holder := .gather, used := n } : State).issueGather g line) :=
  (execGrant_of_choice s .gather n g hc hg).trans
    (congrArg _ (({ s with holder := .gather, used := n } : State).issue_gather g line ho))

/-- A guarded write's last grant marks the entries that its addressed bytes may have changed (R139). -/
theorem State.guardedWriteMarks_eq (s : State) (e : ForwardEntry) (marks : Entry → Bool)
    (hmarks : ∀ d, marks d = decide (e.prior ≠ none ∧
      (d.state = .queued ∨ d.state = .gathering ∨ d.state = .ready) ∧ (s.aperture d.aperture).state ≠ .empty ∧
      (s.aperture d.aperture).fields.readOrdering = .strict ∧
      max (s.aperture d.aperture).fields.surfaceBase.toNat e.address.toNat <
        min (s.aperture d.aperture).fields.surfaceEnd (e.address.toNat + 8 * e.beats))) :
    s.guardedWriteMarks e =
      { s with places := s.places.map (Option.map (fun d => if marks d then { d with stale := true } else d)) } := by
  cases hp : e.prior with
  | none =>
    have hnone : (fun d => if marks d = true then { d with stale := true } else d) = id := funext fun d => by
      rw [hmarks, hp]
      simp
    rw [hnone, Option.map_id, Vector.map_id]
    simp only [State.guardedWriteMarks, hp]
  | some ps =>
    simp only [State.guardedWriteMarks, hp]
    refine State.markStale_eq s _ marks fun d => Bool.eq_iff_iff.mpr ?_
    rw [hmarks, hp, decide_eq_true_eq, Bool.and_eq_true, EntryState.markable_iff]
    simp [Fields.surfaceMeets, rangesMeet, rangeEnd, and_assoc]

/-- Settles O37: the choice of R154, and the request of each source. -/
theorem grantFollowsTheArbiter : Obligations.GrantFollowsTheArbiter := by
  constructor
  · intro s may
    refine ⟨fun hnone => execGrant_of_none s (s.choice_none hnone), fun src hmay hstep => ?_⟩
    have hchoice := s.choice_of_step src hmay hstep
    obtain ⟨htag, hoffers⟩ : s.freeTag.isSome = true ∧ s.offers src = true := by
      simpa [may, State.requesting] using hmay
    obtain ⟨g, hg⟩ := Option.isSome_iff_exists.mp htag
    obtain ⟨hfree, hlow⟩ := (s.freeTag_eq_some g).mp hg
    generalize (if src = s.holder ∧ s.used < s.timing.allowance then s.used + 1 else 1) = n at hchoice
    obtain ⟨hholder, hused, rec, hrec, htags⟩ :=
      ({ s with holder := src, used := n } : State).issuedFor_issue src g hoffers
    have hsame := State.tag_congr _ (s.setTag g (some rec)) htags
    refine ⟨_, g, rec, execGrant_of_choice s src n g hchoice hg, hholder, hused, hfree, hlow, ?_, hrec, fun j hj => ?_⟩
    · rw [hsame, State.tag_setTag, if_pos rfl]
    · rw [hsame, State.tag_setTag, if_neg (Ne.symm hj)]
  · intro s g n hg
    refine ⟨fun k hc ho => ?_, fun p job line hc hgather ho => ?_, fun job buffer line hc hgather ho => ?_,
      fun e rest l hc hf ho hk => ?_, fun e rest l hc hf ho hk => ?_⟩
    · show execGrant s = _
      rw [execGrant_of_choice s .combine n g hc hg,
        ({ s with holder := .combine, used := n } : State).issue_combine g k ho]
      by_cases hmerging : (s.slot k).state = .merging
      · rw [if_pos hmerging, if_pos hmerging]
        exact congrArg _ (if_pos hmerging)
      · rw [if_neg hmerging, if_neg hmerging]
        exact congrArg _ (if_neg hmerging)
    · have hoffer : s.gatherOffer = some line := by simp only [State.gatherOffer, hgather, ho]
      show execGrant s = _
      rw [State.execGrant_gather hg hc hoffer]
      simp only [State.issueGather, hgather]
      rfl
    · have hoffer : s.gatherOffer = some line := by simp only [State.gatherOffer, hgather, ho]
      show execGrant s = _
      rw [State.execGrant_gather hg hc hoffer]
      simp only [State.issueGather, hgather]
      rfl
    · show execGrant s = _
      rw [State.execGrant_forward hg hc hf ho]
      simp only [State.issueForward, hk, Option.isNone_iff_eq_none]
      split <;> rfl
    · dsimp only
      refine ⟨fun hmore => ?_, fun hlast => ?_⟩
      · show execGrant s = _
        rw [State.execGrant_forward hg hc hf ho]
        simp only [State.issueForward, hk, Option.isNone_iff_eq_none, if_neg hmore]
        rfl
      · show execGrant s = _
        rw [State.execGrant_forward hg hc hf ho]
        simp only [State.issueForward, hk, Option.isNone_iff_eq_none, if_pos hlast]
        exact congrArg (fun v : State => Host.Outcome.next (v.settle []))
          (State.guardedWriteMarks_eq _ e _ fun d => rfl)

end Sys2Proof.Machine
end

section
/-! SUPPORT. Coordinate translation from view bits to stored bits and back (R25 to R36, R120), in the words of the
statements. -/

namespace Sys2Proof.Machine

/-! ### Stored bits (R29, R31) -/

theorem Fields.storedBit_eq (f : Fields) (b k : Nat) : f.storedBit b k = f.surfaceBase.toNat * 8 +
    (f.storedAt (f.elementAt b k).1.1 (f.elementAt b k).1.2).2 * (f.pitch.toNat * 512) +
    ((f.storedAt (f.elementAt b k).1.1 (f.elementAt b k).1.2).1 * f.bitsPerElement + (f.elementAt b k).2) := by
  rw [← Nat.add_assoc]
  rfl

theorem Fields.Sound.depth_pos {f : Fields} (h : f.Sound) : 0 < f.bitsPerElement := by
  rcases h.depth with hd | hd | hd | hd | hd <;> omega

/-- The bits of the elements of a stored row lie before its tail. -/
theorem row_bit_lt {u ws d e : Nat} (hu : u < ws) (he : e < d) : u * d + e < ws * d :=
  calc u * d + e < u * d + d := Nat.add_lt_add_left he _
    _ = (u + 1) * d := (Nat.succ_mul _ _).symm
    _ ≤ ws * d := Nat.mul_le_mul_right _ hu

/-- The stored row and the bit of that row at which a view bit lies (R29, R31). -/
theorem Fields.Sound.storedBit_in_row {f : Fields} (h : f.Sound) (b k : Nat) (hb : b < f.h * f.viewPitch) (hk : k < 8) :
    ∃ v t, v < f.hs ∧ t < f.ws * f.bitsPerElement ∧
      f.storedBit b k = f.surfaceBase.toNat * 8 + v * (f.pitch.toNat * 512) + t ∧
      f.viewAt (t / f.bitsPerElement) v = (f.elementAt b k).1 ∧ t % f.bitsPerElement = (f.elementAt b k).2 := by
  obtain ⟨hx, hy, he, -, -, -⟩ := h.elementAt b k hb hk
  obtain ⟨hu, hv⟩ := f.storedAt_lt _ _ hx hy
  obtain ⟨hdiv, hmod⟩ := mul_add_div_mod (f.storedAt (f.elementAt b k).1.1 (f.elementAt b k).1.2).1 _ _ he
  refine ⟨_, _, hv, row_bit_lt hu he, f.storedBit_eq b k, ?_, hmod⟩
  rw [hdiv]
  exact f.viewAt_storedAt _ _ hx hy

/-- A stored bit lies in the surface extent (R31). -/
theorem Fields.Sound.row_bit_lt_surfaceEnd {f : Fields} (h : f.Sound) {v t : Nat} (hv : v < f.hs)
    (ht : t < f.ws * f.bitsPerElement) :
    f.surfaceBase.toNat * 8 + v * (f.pitch.toNat * 512) + t < f.surfaceEnd * 8 := by
  have hrow : v * (f.pitch.toNat * 512) + t < f.hs * (f.pitch.toNat * 512) :=
    row_bit_lt hv (Nat.lt_of_lt_of_le ht h.fits)
  have hend : f.surfaceEnd * 8 = f.surfaceBase.toNat * 8 + f.hs * (f.pitch.toNat * 512) := by
    rw [Fields.surfaceEnd, Fields.surfacePitch]
    ring
  omega

theorem lineOfBit_toNat (s : Nat) (hs : s < 2 ^ 32 * 8) : (lineOfBit s).toNat = s / 512 * 64 := by
  rw [lineOfBit, BitVec.toNat_ofNat]
  exact Nat.mod_eq_of_lt (by omega)

theorem Fields.Sound.storedBit_lt {f : Fields} (h : f.Sound) (b k : Nat) (hb : b < f.h * f.viewPitch) (hk : k < 8) :
    f.storedBit b k < 2 ^ 32 * 8 := by
  obtain ⟨v, t, hv, ht, hs, -⟩ := h.storedBit_in_row b k hb hk
  have hlt := h.row_bit_lt_surfaceEnd hv ht
  have hsurface := h.surface
  omega

/-! ### The inverse map (R35) -/

/-- The inverse map on the `m`-th line of the surface. -/
theorem Fields.Sound.inverse_eq {f : Fields} (line : Addr) (p m : Nat)
    (hline : line.toNat = f.surfaceBase.toNat + m * 64) : f.inverse line p =
      if f.ws * f.bitsPerElement ≤ m % f.pitch.toNat * 512 + p then none
      else some (f.byteOf
        (f.viewAt ((m % f.pitch.toNat * 512 + p) / f.bitsPerElement) (m / f.pitch.toNat)).1
        (f.viewAt ((m % f.pitch.toNat * 512 + p) / f.bitsPerElement) (m / f.pitch.toNat)).2
        ((m % f.pitch.toNat * 512 + p) % f.bitsPerElement)) := by
  have hrel : line.toNat - f.surfaceBase.toNat = m * 64 := by omega
  have hv : m * 64 / f.surfacePitch = m / f.pitch.toNat := Nat.mul_div_mul_right m _ (by decide)
  have hr : m * 64 % f.surfacePitch * 8 + p = m % f.pitch.toNat * 512 + p := by
    rw [Fields.surfacePitch, Nat.mul_mod_mul_right]
    omega
  unfold Fields.inverse
  dsimp only
  rw [hrel, hv, hr]
  refine if_congr Iff.rfl rfl ?_
  unfold Fields.byteOf
  split <;> rfl

/-- The inverse map leads back from the stored place of a view bit (R35). -/
theorem Fields.Sound.inverse_storedBit {f : Fields} (h : f.Sound) (b k : Nat) (hb : b < f.h * f.viewPitch) (hk : k < 8) :
    f.inverse (lineOfBit (f.storedBit b k)) (posOfBit (f.storedBit b k)) = some (b, k) := by
  have hline := lineOfBit_toNat _ (h.storedBit_lt b k hb hk)
  obtain ⟨v, t, hv, ht, hs, hview, hbit⟩ := h.storedBit_in_row b k hb hk
  obtain ⟨-, -, -, -, -, hback⟩ := h.elementAt b k hb hk
  have halign := h.aligned
  have hpitch : t / 512 < f.pitch.toNat := Nat.div_lt_of_lt_mul (by have := h.fits; omega)
  have hsplit : f.storedBit b k = (f.surfaceBase.toNat / 64 + (v * f.pitch.toNat + t / 512)) * 512 + t % 512 := by
    have hrow : v * (f.pitch.toNat * 512) = v * f.pitch.toNat * 512 := (Nat.mul_assoc _ _ _).symm
    rw [hs, hrow]
    omega
  obtain ⟨hquot, hrem⟩ := mul_add_div_mod v f.pitch.toNat (t / 512) hpitch
  have hpos : posOfBit (f.storedBit b k) = t % 512 := by
    rw [posOfBit, hsplit]
    omega
  rw [Fields.Sound.inverse_eq (lineOfBit _) _ (v * f.pitch.toNat + t / 512) (by rw [hline, hsplit]; omega), hquot, hrem,
    hpos, Nat.div_add_mod' t 512, if_neg (by omega), hview, hbit, hback]

/-- What the inverse map finds is a view bit that is stored there (R35). -/
theorem Fields.Sound.storedBit_of_inverse {f : Fields} (h : f.Sound) (line : Addr) (p b k : Nat)
    (haligned : line.toNat % 64 = 0) (hlow : f.surfaceBase.toNat ≤ line.toNat) (hhigh : line.toNat < f.surfaceEnd)
    (hinverse : f.inverse line p = some (b, k)) :
    b < f.h * f.viewPitch ∧ k < 8 ∧ f.storedBit b k = line.toNat * 8 + p := by
  have halign := h.aligned
  obtain ⟨m, hm⟩ : ∃ m, line.toNat = f.surfaceBase.toNat + m * 64 :=
    ⟨(line.toNat - f.surfaceBase.toNat) / 64, by omega⟩
  rw [Fields.Sound.inverse_eq line p m hm] at hinverse
  have hv : m / f.pitch.toNat < f.hs := by
    rw [Nat.div_lt_iff_lt_mul h.pitch]
    have hend : f.surfaceEnd = f.surfaceBase.toNat + f.hs * f.pitch.toNat * 64 := by
      rw [Fields.surfaceEnd, Fields.surfacePitch]
      ring
    omega
  split at hinverse
  · cases hinverse
  · rename_i hin
    have ht : m % f.pitch.toNat * 512 + p < f.ws * f.bitsPerElement := Nat.lt_of_not_le hin
    generalize hteq : m % f.pitch.toNat * 512 + p = t at hinverse ht
    have hu : t / f.bitsPerElement < f.ws := (Nat.div_lt_iff_lt_mul h.depth_pos).mpr ht
    have he : t % f.bitsPerElement < f.bitsPerElement := Nat.mod_lt _ h.depth_pos
    obtain ⟨hx, hy⟩ := f.viewAt_lt _ _ hu hv
    obtain ⟨hb, hk, helement⟩ := h.elementAt_byteOf _ _ _ hx hy he
    rw [Option.some.inj hinverse] at hb hk helement
    refine ⟨hb, hk, ?_⟩
    have hmod := Nat.div_add_mod' t f.bitsPerElement
    have hrow : m / f.pitch.toNat * (f.pitch.toNat * 512) + m % f.pitch.toNat * 512 = m * 512 := by
      rw [← Nat.mul_assoc, ← Nat.add_mul, Nat.div_add_mod']
    rw [Fields.storedBit_eq, helement, f.storedAt_viewAt _ _ hu hv]
    dsimp only
    omega

/-! ### Placements (R32, R68) -/

/-- The bits of one placement lie in one element, side by side. -/
theorem placement_row_bits (d c i m : Nat) (hd : d = 1 ∨ d = 2 ∨ d = 4 ∨ d = 8 ∨ d = 16) (hm : m < min d 8)
    (him : i * min d 8 + m < 8) :
    (8 * c + (i * min d 8 + m)) / d = (8 * c + i * min d 8) / d ∧
      (8 * c + (i * min d 8 + m)) % d = (8 * c + i * min d 8) % d + m ∧
      (8 * c + i * min d 8) % d % min d 8 = 0 := by
  rcases hd with rfl | rfl | rfl | rfl | rfl <;> simp at hm him ⊢ <;> omega

/-- A placement of `n` bits that begins at a multiple of `n` lies in one line. -/
theorem placement_in_line (n s m : Nat) (hn : n = 1 ∨ n = 2 ∨ n = 4 ∨ n = 8) (hs : n ∣ s) (hm : m < n) :
    (s + m) / 512 = s / 512 ∧ (s + m) % 512 = s % 512 + m := by
  rcases hn with rfl | rfl | rfl | rfl <;> omega

theorem Fields.Sound.placementBits_eq {f : Fields} (h : f.Sound) : f.placementBits = 1 ∨ f.placementBits = 2 ∨
    f.placementBits = 4 ∨ f.placementBits = 8 := by
  unfold Fields.placementBits
  rcases h.depth with hd | hd | hd | hd | hd <;> simp [hd]

/-- The bits of a placement are stored side by side in one line (R29, R32). -/
theorem Fields.Sound.storedBit_placement {f : Fields} (h : f.Sound) (b i m : Nat) (hm : m < f.placementBits)
    (him : i * f.placementBits + m < 8) :
    lineOfBit (f.storedBit b (i * f.placementBits + m)) = lineOfBit (f.placementBit b i) ∧
      posOfBit (f.storedBit b (i * f.placementBits + m)) = posOfBit (f.placementBit b i) + m := by
  obtain ⟨hdiv, hmod, hstart⟩ := placement_row_bits f.bitsPerElement (b % f.viewPitch) i m h.depth hm him
  have hfirst : (f.elementAt b (i * f.placementBits + m)).1 = (f.elementAt b (i * f.placementBits)).1 :=
    congrArg (fun x => (x, b / f.viewPitch)) hdiv
  have hsecond : (f.elementAt b (i * f.placementBits + m)).2 = (f.elementAt b (i * f.placementBits)).2 + m := hmod
  have hside : f.storedBit b (i * f.placementBits + m) = f.placementBit b i + m := by
    rw [Fields.placementBit, f.storedBit_eq, f.storedBit_eq, hfirst, hsecond]
    omega
  have hbits := h.placementBits_eq
  have height : f.placementBits ∣ 8 := by rcases hbits with hb | hb | hb | hb <;> rw [hb] <;> decide
  have hdepth : f.placementBits ∣ f.bitsPerElement := by
    unfold Fields.placementBits
    rcases h.depth with hd | hd | hd | hd | hd <;> rw [hd] <;> decide
  have haligned : f.placementBits ∣ f.placementBit b i := by
    rw [Fields.placementBit, f.storedBit_eq]
    refine Nat.dvd_add (Nat.dvd_add (Nat.dvd_mul_left_of_dvd height _) (Nat.dvd_mul_left_of_dvd
      (Nat.dvd_mul_left_of_dvd (height.trans (by decide)) _) _))
      (Nat.dvd_add (Nat.dvd_mul_left_of_dvd hdepth _) (Nat.dvd_of_mod_eq_zero hstart))
  obtain ⟨hline, hpos⟩ := placement_in_line _ _ m hbits haligned hm
  rw [hside]
  exact ⟨by rw [lineOfBit, hline, lineOfBit], hpos⟩

/-- Every bit of a view byte belongs to one of its placements (R32, R68). -/
theorem Fields.Sound.placement_of_bit {f : Fields} (h : f.Sound) (k : Nat) (hk : k < 8) :
    ∃ i < f.placementsPerByte, ∃ m < f.placementBits, k = i * f.placementBits + m := by
  refine ⟨k / f.placementBits, ?_, k % f.placementBits, Nat.mod_lt _ ?_, (Nat.div_add_mod' _ _).symm⟩
  · unfold Fields.placementsPerByte Fields.placementBits
    rcases h.depth with hd | hd | hd | hd | hd <;> simp [hd] <;> omega
  · rcases h.placementBits_eq with hb | hb | hb | hb <;> omega

/-- The first bit of a placement is a bit of its view byte. -/
theorem Fields.Sound.placement_first {f : Fields} (h : f.Sound) (i : Nat) (hi : i < f.placementsPerByte) :
    i * f.placementBits < 8 := by
  revert hi
  unfold Fields.placementsPerByte Fields.placementBits
  rcases h.depth with hd | hd | hd | hd | hd <;> simp [hd] <;> omega

/-! ### Footprints (R36) -/

theorem mem_insertLine (l m : Addr) (lines : List Addr) : m ∈ insertLine l lines ↔ m = l ∨ m ∈ lines := by
  induction lines with
  | nil => simp [insertLine]
  | cons n rest ih =>
    unfold insertLine
    split
    · simp
    · split
      · rename_i heq
        simp [heq]
      · rw [List.mem_cons, ih, List.mem_cons]
        tauto

/-- Inserting keeps the increasing order. -/
theorem insertLine_increasing (l : Addr) (lines : List Addr) (h : (lines.map (·.toNat)).Pairwise (· < ·)) :
    ((insertLine l lines).map (·.toNat)).Pairwise (· < ·) := by
  induction lines with
  | nil => simp [insertLine]
  | cons n rest ih =>
    obtain ⟨hfirst, hrest⟩ := List.pairwise_cons.mp h
    unfold insertLine
    split
    · rename_i hlt
      refine List.pairwise_cons.mpr ⟨fun x hx => ?_, h⟩
      rcases List.mem_cons.mp hx with rfl | hx
      · exact hlt
      · exact Nat.lt_trans hlt (hfirst x hx)
    · rename_i hnot
      split
      · exact h
      · rename_i hne
        refine List.pairwise_cons.mpr ⟨fun x hx => ?_, ih hrest⟩
        obtain ⟨y, hy, rfl⟩ := List.mem_map.mp hx
        rcases (mem_insertLine l y rest).mp hy with rfl | hy
        · have hneNat : y.toNat ≠ n.toNat := fun heq => hne (BitVec.eq_of_toNat_eq heq)
          show n.toNat < y.toNat
          omega
        · exact hfirst _ (List.mem_map_of_mem hy)

theorem insertLine_length (l : Addr) (lines : List Addr) : (insertLine l lines).length ≤ lines.length + 1 := by
  induction lines with
  | nil => simp [insertLine]
  | cons n rest ih =>
    unfold insertLine
    split
    · simp
    · split
      · simp
      · simpa using ih

/-- Inserting lines one after the other gives them in increasing order, each once. -/
theorem foldr_insertLine (lines : List Addr) :
    ((lines.foldr insertLine []).map (·.toNat)).Pairwise (· < ·) ∧
      (∀ l, l ∈ lines.foldr insertLine [] ↔ l ∈ lines) ∧ (lines.foldr insertLine []).length ≤ lines.length := by
  induction lines with
  | nil => simp
  | cons l rest ih =>
    obtain ⟨horder, hmem, hlength⟩ := ih
    refine ⟨insertLine_increasing l _ horder, fun m => ?_, ?_⟩
    · rw [List.foldr_cons, mem_insertLine, hmem, List.mem_cons]
    · have := insertLine_length l (rest.foldr insertLine [])
      rw [List.foldr_cons, List.length_cons]
      omega

theorem Fields.mem_footprint (f : Fields) (a : Addr) (beats : Nat) (l : Addr) : l ∈ f.footprint a beats ↔
    ∃ j < 8 * beats, ∃ i < f.placementsPerByte, l = lineOfBit (f.placementBit (f.viewOffset a + j) i) := by
  unfold Fields.footprint Fields.footprintOf
  rw [(foldr_insertLine _).2.1]
  simp [eq_comm]

theorem Fields.Sound.placementsPerByte_le {f : Fields} (h : f.Sound) : f.placementsPerByte ≤ 8 := by
  unfold Fields.placementsPerByte
  rcases h.depth with hd | hd | hd | hd | hd <;> simp [hd]

theorem Fields.Sound.footprint_length {f : Fields} (h : f.Sound) (a : Addr) (beats : Nat) :
    (f.footprint a beats).length ≤ 8 * beats * 8 := by
  refine Nat.le_trans (foldr_insertLine _).2.2 ?_
  rw [List.length_flatMap]
  simp only [List.length_map, List.length_range, List.map_map, Function.comp_def, List.map_const', List.sum_replicate,
    smul_eq_mul]
  exact Nat.mul_le_mul_left _ h.placementsPerByte_le

/-- The footprint of a range is the lines of its bytes' bits (R36). -/
theorem Fields.Sound.mem_footprint_iff {f : Fields} (h : f.Sound) (a : Addr) (beats : Nat) (l : Addr) :
    l ∈ f.footprint a beats ↔ ∃ j < 8 * beats, ∃ k < 8, l = lineOfBit (f.storedBit (f.viewOffset a + j) k) := by
  rw [f.mem_footprint]
  refine exists_congr fun j => and_congr_right fun _ => ⟨?_, ?_⟩
  · rintro ⟨i, hi, rfl⟩
    exact ⟨_, h.placement_first i hi, rfl⟩
  · rintro ⟨k, hk, rfl⟩
    obtain ⟨i, hi, m, hm, rfl⟩ := h.placement_of_bit k hk
    exact ⟨i, hi, (h.storedBit_placement _ i m hm hk).1⟩

/-- Settles O58: the forward map in range, the inverse map on its results, and the footprint as a set of lines. -/
theorem inverseMapLeadsBack : Obligations.InverseMapLeadsBack := by
  constructor
  · intro f b k hvalid hb hk W H d y s
    have h := f.sound_of_valid hvalid
    rw [h.view] at hb
    have hb' : b < f.h * f.viewPitch := by omega
    obtain ⟨hx, hy, he, hrow, hbit, -⟩ := h.elementAt b k hb' hk
    obtain ⟨v, t, hv, ht, hs, -⟩ := h.storedBit_in_row b k hb' hk
    refine ⟨⟨(f.elementAt b k).1.1, (f.elementAt b k).2, hbit, he, hx, hy, ?_⟩,
      lineOfBit_toNat _ (h.storedBit_lt b k hb' hk), rfl, h.inverse_storedBit b k hb' hk, ?_, ?_, ?_⟩
    · have hflat : ∀ a v p u e : Nat, a + v * (p * 512) + (u + e) = a + v * p * 512 + u + e := fun _ _ _ _ _ => by ring
      have hstored := (f.storedBit_eq b k).trans (hflat ..)
      unfold Fields.storedAt Fields.mirrored at hstored
      revert hstored
      cases f.orientation <;> exact id
    · show _ ≤ f.storedBit b k
      omega
    · show f.storedBit b k < _
      rw [hs]
      exact h.row_bit_lt_surfaceEnd hv ht
    · show (f.storedBit b k - _) % _ < _
      rw [hs, Nat.add_assoc, Nat.add_sub_cancel_left, Nat.mul_add_mod',
        Nat.mod_eq_of_lt (Nat.lt_of_lt_of_le ht h.fits)]
      exact ht
  · intro f a beats hvalid hlow hhigh lines
    have h := f.sound_of_valid hvalid
    obtain ⟨horder, -, -⟩ := foldr_insertLine ((((List.range (8 * beats)).map (fun j => f.viewOffset a + j))).flatMap
      (fun b => (List.range f.placementsPerByte).map (fun j => lineOfBit (f.placementBit b j))))
    refine ⟨horder, h.mem_footprint_iff a beats, fun hone hmax => ⟨?_, ?_⟩⟩
    · refine List.length_pos_of_mem ((h.mem_footprint_iff a beats _).mpr ⟨0, by omega, 0, by omega, rfl⟩)
    · have := h.footprint_length a beats
      show (f.footprint a beats).length ≤ 1024
      omega

end Sys2Proof.Machine
end

section
/-! SUPPORT. Reading back by the forward and by the inverse map (R34, R35, R120). -/

namespace Sys2Proof.Machine

/-! ### Folds that reach a place once -/

/-- Steps that do not touch what is observed leave it. -/
theorem foldl_unobserved {β γ : Type} (step : β → Nat → β) (observe : β → γ) (ps : List Nat)
    (miss : ∀ p ∈ ps, ∀ b, observe (step b p) = observe b) (b : β) : observe (ps.foldl step b) = observe b := by
  induction ps generalizing b with
  | nil => rfl
  | cons p ps ih =>
    rw [List.foldl_cons, ih (fun q hq => miss q (List.mem_cons_of_mem _ hq)), miss p (List.mem_cons_self ..)]

/-- The one step that sets what is observed decides it. -/
theorem foldl_observed_once {β γ : Type} (step : β → Nat → β) (observe : β → γ) (value : γ) (p : Nat)
    (hit : ∀ b, observe (step b p) = value) (ps : List Nat)
    (miss : ∀ q ∈ ps, q ≠ p → ∀ b, observe (step b q) = observe b) (hp : p ∈ ps) (b : β) :
    observe (ps.foldl step b) = value := by
  induction ps generalizing b with
  | nil => cases hp
  | cons q ps ih =>
    rw [List.foldl_cons]
    by_cases hin : p ∈ ps
    · exact ih (fun q hq => miss q (List.mem_cons_of_mem _ hq)) hin _
    · have hq : p = q := (List.mem_cons.mp hp).resolve_right hin
      rw [foldl_unobserved step observe ps fun q' hq' => miss q' (List.mem_cons_of_mem _ hq') fun he => hin (he ▸ hq'),
        ← hq, hit]

/-! ### Bits of a read (R34) -/

theorem ReadBuffer.put_getLsbD (buf : ReadBuffer) (q : Nat) (v : Bool) (i : Nat) (hi : i < 1024) :
    (buf.put q v).bits.getLsbD i = (if i = q then v else buf.bits.getLsbD i) ∧
      (buf.put q v).filled.getLsbD i = (decide (i = q) || buf.filled.getLsbD i) := by
  have hone : (1#1024 <<< q).getLsbD i = decide (i = q) := by
    rw [BitVec.getLsbD_shiftLeft, BitVec.getLsbD_one, Bool.eq_iff_iff]
    simp only [hi, decide_true, Bool.true_and, Bool.and_eq_true, Bool.not_eq_true', decide_eq_false_iff_not,
      decide_eq_true_eq]
    omega
  unfold ReadBuffer.put
  constructor
  · cases v
    · simp only [Bool.false_eq_true, if_false, BitVec.getLsbD_and, BitVec.getLsbD_not, hone, hi, decide_true]
      by_cases hq : i = q <;> simp [hq]
    · simp only [if_true, BitVec.getLsbD_or, hone]
      by_cases hq : i = q <;> simp [hq]
  · simp only [BitVec.getLsbD_or, hone, Bool.or_comm]

/-- Reads with the same bits and the same places filled are the same. -/
theorem ReadBuffer.eq_of_getLsbD {a b : ReadBuffer}
    (h : ∀ q < 1024, a.bits.getLsbD q = b.bits.getLsbD q ∧ a.filled.getLsbD q = b.filled.getLsbD q) : a = b := by
  obtain ⟨bits, filled⟩ := a
  obtain ⟨bits', filled'⟩ := b
  have hbits : bits = bits' := BitVec.eq_of_getLsbD_eq fun q hq => (h q hq).1
  have hfilled : filled = filled' := BitVec.eq_of_getLsbD_eq fun q hq => (h q hq).2
  rw [hbits, hfilled]

/-- Bit `p` of the line goes to place `q` of the read. -/
def Fields.Reaches (f : Fields) (b0 n : Nat) (line : Addr) (p q : Nat) : Prop :=
  ∃ b k, f.inverse line p = some (b, k) ∧ b0 ≤ b ∧ b < b0 + n ∧ q = 8 * (b - b0) + k

/-- A line's bit sets the place it goes to, and no other. -/
theorem Fields.fillBit_getLsbD (f : Fields) (b0 n : Nat) (line : Addr) (l : LineData) (buf : ReadBuffer) (p q : Nat)
    (hq : q < 1024) :
    (f.Reaches b0 n line p q → (f.fillBit b0 n line l buf p).bits.getLsbD q = l.getLsbD p ∧
      (f.fillBit b0 n line l buf p).filled.getLsbD q = true) ∧
    (¬ f.Reaches b0 n line p q → (f.fillBit b0 n line l buf p).bits.getLsbD q = buf.bits.getLsbD q ∧
      (f.fillBit b0 n line l buf p).filled.getLsbD q = buf.filled.getLsbD q) := by
  unfold Fields.fillBit
  constructor
  · rintro ⟨b, k, hinverse, hlow, hhigh, rfl⟩
    obtain ⟨hbits, hfilled⟩ := buf.put_getLsbD (8 * (b - b0) + k) (l.getLsbD p) _ hq
    simp only [hinverse, if_pos (And.intro hlow hhigh)]
    exact ⟨hbits.trans (if_pos rfl), by rw [hfilled, decide_eq_true rfl, Bool.true_or]⟩
  · intro hnot
    cases hinverse : f.inverse line p with
    | none => exact ⟨rfl, rfl⟩
    | some found =>
      obtain ⟨b, k⟩ := found
      dsimp only
      split
      · rename_i hin
        have hne : q ≠ 8 * (b - b0) + k := fun he => hnot ⟨b, k, hinverse, hin.1, hin.2, he⟩
        obtain ⟨hbits, hfilled⟩ := buf.put_getLsbD (8 * (b - b0) + k) (l.getLsbD p) q hq
        exact ⟨hbits.trans (if_neg hne), by rw [hfilled, decide_eq_false hne, Bool.false_or]⟩
      · exact ⟨rfl, rfl⟩

/-- Of a line of the surface, exactly the bit stored there goes to a place of the read (R35). -/
theorem Fields.Sound.reaches_iff {f : Fields} (h : f.Sound) (b0 n : Nat) (line : Addr) (p q : Nat) (hp : p < 512)
    (hview : b0 + n ≤ f.h * f.viewPitch) (haligned : line.toNat % 64 = 0)
    (hlow : f.surfaceBase.toNat ≤ line.toNat) (hhigh : line.toNat < f.surfaceEnd) :
    f.Reaches b0 n line p q ↔ q < 8 * n ∧ lineOfBit (f.storedBit (b0 + q / 8) (q % 8)) = line ∧
      posOfBit (f.storedBit (b0 + q / 8) (q % 8)) = p := by
  constructor
  · rintro ⟨b, k, hinverse, hb0, hbn, rfl⟩
    obtain ⟨hb, hk, hstored⟩ := h.storedBit_of_inverse line p b k haligned hlow hhigh hinverse
    have hline := lineOfBit_toNat _ (h.storedBit_lt b k hb hk)
    have hbyte : b0 + (8 * (b - b0) + k) / 8 = b := by omega
    have hbit : (8 * (b - b0) + k) % 8 = k := by omega
    rw [hbyte, hbit]
    refine ⟨by omega, BitVec.eq_of_toNat_eq ?_, ?_⟩
    · rw [hline, hstored]
      omega
    · rw [posOfBit, hstored]
      omega
  · rintro ⟨hq, rfl, rfl⟩
    have hk : q % 8 < 8 := Nat.mod_lt _ (by decide)
    exact ⟨_, _, h.inverse_storedBit (b0 + q / 8) (q % 8) (by omega) hk, by omega, by omega, by omega⟩

/-- Bit `q` of a read that the line's stored bits have been put into (R120). -/
theorem Fields.Sound.fillInverse_getLsbD {f : Fields} (h : f.Sound) (b0 n : Nat) (line : Addr) (l : LineData)
    (buf : ReadBuffer) (q : Nat) (hq : q < 1024) (hview : b0 + n ≤ f.h * f.viewPitch) (haligned : line.toNat % 64 = 0)
    (hlow : f.surfaceBase.toNat ≤ line.toNat) (hhigh : line.toNat < f.surfaceEnd) :
    let hit := q < 8 * n ∧ lineOfBit (f.storedBit (b0 + q / 8) (q % 8)) = line
    (hit → (f.fillInverse b0 n line l buf).bits.getLsbD q =
        l.getLsbD (posOfBit (f.storedBit (b0 + q / 8) (q % 8))) ∧
      (f.fillInverse b0 n line l buf).filled.getLsbD q = true) ∧
    (¬ hit → (f.fillInverse b0 n line l buf).bits.getLsbD q = buf.bits.getLsbD q ∧
      (f.fillInverse b0 n line l buf).filled.getLsbD q = buf.filled.getLsbD q) := by
  intro hit
  have reaches : ∀ p ∈ List.range 512, f.Reaches b0 n line p q ↔
      hit ∧ posOfBit (f.storedBit (b0 + q / 8) (q % 8)) = p := fun p hp => by
    rw [h.reaches_iff b0 n line p q (List.mem_range.mp hp) hview haligned hlow hhigh, and_assoc]
  have step := fun b p => f.fillBit_getLsbD b0 n line l b p q hq
  unfold Fields.fillInverse
  refine ⟨fun hhit => ?_, fun hhit => ?_⟩
  · have hin : posOfBit (f.storedBit (b0 + q / 8) (q % 8)) ∈ List.range 512 :=
      List.mem_range.mpr (Nat.mod_lt _ (by decide))
    have hits := fun b => (step b _).1 ((reaches _ hin).mpr ⟨hhit, rfl⟩)
    have misses := fun p hp (hne : p ≠ posOfBit (f.storedBit (b0 + q / 8) (q % 8))) b =>
      (step b p).2 fun hr => hne ((reaches p hp).mp hr).2.symm
    exact ⟨foldl_observed_once _ (fun b : ReadBuffer => b.bits.getLsbD q) _ _ (fun b => (hits b).1) _
        (fun p hp hne b => (misses p hp hne b).1) hin buf,
      foldl_observed_once _ (fun b : ReadBuffer => b.filled.getLsbD q) _ _ (fun b => (hits b).2) _
        (fun p hp hne b => (misses p hp hne b).2) hin buf⟩
  · have misses := fun p hp b => (step b p).2 fun hr => hhit ((reaches p hp).mp hr).1
    exact ⟨foldl_unobserved _ (fun b : ReadBuffer => b.bits.getLsbD q) _ (fun p hp b => (misses p hp b).1) buf,
      foldl_unobserved _ (fun b : ReadBuffer => b.filled.getLsbD q) _ (fun p hp b => (misses p hp b).2) buf⟩

/-- Bit `q` of a read that the forward map has collected from a line (R34). -/
theorem Fields.fillForward_getLsbD (f : Fields) (b0 n : Nat) (line : Addr) (l : LineData) (buf : ReadBuffer) (q : Nat)
    (hq : q < 1024) :
    let hit := q < 8 * n ∧ lineOfBit (f.storedBit (b0 + q / 8) (q % 8)) = line
    (hit → (f.fillForward b0 n line l buf).bits.getLsbD q =
        l.getLsbD (posOfBit (f.storedBit (b0 + q / 8) (q % 8))) ∧
      (f.fillForward b0 n line l buf).filled.getLsbD q = true) ∧
    (¬ hit → (f.fillForward b0 n line l buf).bits.getLsbD q = buf.bits.getLsbD q ∧
      (f.fillForward b0 n line l buf).filled.getLsbD q = buf.filled.getLsbD q) := by
  intro hit
  have hhit : (decide (q < 8 * n) && lineOfBit (f.storedBit (b0 + q / 8) (q % 8)) == line) = decide hit := by
    simp only [hit, Bool.decide_and, beq_eq_decide]
  unfold Fields.fillForward
  refine ⟨fun h => ?_, fun h => ?_⟩ <;>
    simp only [bitsOf_getLsbD, hq, hhit, h, decide_true, decide_false, Bool.true_and, Bool.true_or, Bool.false_or,
      Bool.false_eq_true, if_true, if_false, and_self]

/-- Settles O59: bit by bit, both maps take the same bit of the line, or leave the buffer's. -/
theorem gatherMapsAgree : Obligations.GatherMapsAgree := by
  intro f b n line l buf hvalid hview hn haligned hlow hhigh
  have h := f.sound_of_valid hvalid
  rw [h.view] at hview
  refine ReadBuffer.eq_of_getLsbD fun q hq => ?_
  obtain ⟨ihit, imiss⟩ := h.fillInverse_getLsbD b n line l buf q hq (by omega) haligned hlow hhigh
  obtain ⟨fhit, fmiss⟩ := f.fillForward_getLsbD b n line l buf q hq
  by_cases hhit : q < 8 * n ∧ lineOfBit (f.storedBit (b + q / 8) (q % 8)) = line
  · rw [(ihit hhit).1, (ihit hhit).2, (fhit hhit).1, (fhit hhit).2]
    exact ⟨rfl, rfl⟩
  · rw [(imiss hhit).1, (imiss hhit).2, (fmiss hhit).1, (fmiss hhit).2]
    exact ⟨rfl, rfl⟩

end Sys2Proof.Machine
end

section
/-! SUPPORT. Placements (R29, R32, R66 to R71, R83 to R86, R89), in the words of the statements. -/

namespace Sys2Proof.Machine

/-! ### Cursors (R68) -/

theorem nextCursor_in_byte (f : Fields) (data : List WriteByte) (c : Cursor) (h : c.element + 1 < f.placementsPerByte) :
    nextCursor f data c = some ⟨c.byte, c.element + 1⟩ := if_pos h

theorem nextCursor_next_byte (f : Fields) (data : List WriteByte) (c : Cursor)
    (h : f.placementsPerByte ≤ c.element + 1) :
    nextCursor f data c = (nextEnabled data (c.byte + 1)).map (fun b => ⟨b, 0⟩) := if_neg (Nat.not_lt.mpr h)

/-! ### The placement at a cursor (R29, R32) -/

theorem Fields.placementValue_testBit (f : Fields) (v : Byte) (j m : Nat) (hm : m < f.placementBits) :
    (f.placementValue v j).testBit m = v.getLsbD (j * f.placementBits + m) := by
  rw [Fields.placementValue, Nat.testBit_mod_two_pow, Nat.testBit_div_two_pow, decide_eq_true hm, Bool.true_and,
    Nat.add_comm]
  rfl

/-- The placement at a cursor has the line, positions and values of its view bits (R29, R32, R68). -/
theorem Fields.Sound.placementAt_bits {f : Fields} (h : f.Sound) (r : IntakeRecord) (c : Cursor) (d : WriteByte)
    (hd : r.data[c.byte]? = some d) (hbyte : (c.element + 1) * f.placementBits ≤ 8) (m : Nat)
    (hm : m < f.placementBits) :
    let place := f.storedBit (f.viewOffset r.address + c.byte) (c.element * f.placementBits + m)
    (placementAt f r c).line = lineOfBit place ∧ (placementAt f r c).pos + m = posOfBit place ∧
      (placementAt f r c).value.testBit m = d.value.getLsbD (c.element * f.placementBits + m) := by
  have hin : c.element * f.placementBits + m < 8 := by
    rw [Nat.succ_mul] at hbyte
    omega
  obtain ⟨hline, hpos⟩ := h.storedBit_placement (f.viewOffset r.address + c.byte) c.element m hm hin
  refine ⟨hline.symm, hpos.symm, ?_⟩
  simp only [placementAt, hd]
  exact f.placementValue_testBit d.value c.element m hm

/-! ### A placement's bits in a slot (R83) -/

theorem Slot.placed_coverage_getLsbD (x : Slot) (p : Placement) (q : Nat) (hq : q < 512) :
    (x.placed p).coverage.getLsbD q = (x.coverage.getLsbD q || decide (p.pos ≤ q ∧ q < p.pos + p.bits)) := by
  simp only [Slot.placed, BitVec.getLsbD_or, bitSpan_getLsbD, hq, true_and]

theorem Slot.placed_data_getLsbD (x : Slot) (p : Placement) (q : Nat) (hq : q < 512) :
    (x.placed p).data.getLsbD q =
      if p.pos ≤ q ∧ q < p.pos + p.bits then p.value.testBit (q - p.pos) else x.data.getLsbD q := by
  simp only [Slot.placed, BitVec.getLsbD_or, BitVec.getLsbD_and, BitVec.getLsbD_not, bitSpan_getLsbD, bitsAt_getLsbD,
    hq, true_and, decide_true, Bool.true_and]
  by_cases hin : p.pos ≤ q ∧ q < p.pos + p.bits <;> simp [hin]

/-! ### One step of the scatter engine (R68 to R71) -/

section Step

variable {s : State} {r : IntakeRecord} {rest : List IntakeRecord} {c : Cursor}
  (hscatter : s.scatter = ⟨.placing, some c⟩) (hintake : s.intake = r :: rest)
include hscatter hintake

/-- With an OPEN slot of the line, the element goes there. -/
theorem State.scatterStep_opened {k : SlotIdx}
    (hk : s.slotWith .opened (placementAt (s.aperture r.aperture).fields r c).line = some k) :
    s.scatterStep = s.placeInto r rest c k := by
  have hcursor : s.scatter.cursor = some c := by rw [hscatter]
  simp only [State.scatterStep, hintake, hcursor, hk]

/-- With none OPEN or MERGING, the lowest FREE slot is opened for it (R69). -/
theorem State.scatterStep_free {k : SlotIdx}
    (hopened : s.slotWith .opened (placementAt (s.aperture r.aperture).fields r c).line = none)
    (hmerging : s.slotWith .merging (placementAt (s.aperture r.aperture).fields r c).line = none)
    (hk : s.firstFreeSlot = some k) : s.scatterStep =
      (s.openSlot k (placementAt (s.aperture r.aperture).fields r c).line r.aperture).placeInto r rest c k := by
  have hcursor : s.scatter.cursor = some c := by rw [hscatter]
  simp only [State.scatterStep, hintake, hcursor, hopened, hmerging, hk]

theorem State.scatterStep_waitMerge {k : SlotIdx}
    (hopened : s.slotWith .opened (placementAt (s.aperture r.aperture).fields r c).line = none)
    (hmerging : s.slotWith .merging (placementAt (s.aperture r.aperture).fields r c).line = some k) :
    s.scatterStep = ⟨{ s with scatter := ⟨.waitMerge, some c⟩ }, [], false⟩ := by
  have hcursor : s.scatter.cursor = some c := by rw [hscatter]
  simp only [State.scatterStep, hintake, hcursor, hopened, hmerging]

theorem State.scatterStep_waitSlot
    (hopened : s.slotWith .opened (placementAt (s.aperture r.aperture).fields r c).line = none)
    (hmerging : s.slotWith .merging (placementAt (s.aperture r.aperture).fields r c).line = none)
    (hfree : s.firstFreeSlot = none) : s.scatterStep =
      ⟨{ s with scatter := ⟨.waitSlot, some c⟩ }, [⟨.evict, s.openOrder.take 1⟩], false⟩ := by
  have hcursor : s.scatter.cursor = some c := by rw [hscatter]
  simp only [State.scatterStep, hintake, hcursor, hopened, hmerging, hfree]

omit hintake in
/-- In PLACING, PLACEMENT is the engine's step and what it closes (R68). -/
theorem State.exec_placement {d : Scattered} (hd : s.scatterStep = d) :
    exec .placement s = .next (if d.left then d.state.settle d.causes else d.state.closeFor d.causes) := by
  have hplacing : s.scatter.state = .placing := by rw [hscatter]
  show execPlacement s = _
  simp only [execPlacement, hplacing, hd]

end Step

/-- A placement that does not end its record. -/
theorem State.placeInto_more (s : State) (r : IntakeRecord) (rest : List IntakeRecord) (c c' : Cursor) (k : SlotIdx)
    (hnext : nextCursor (s.aperture r.aperture).fields r.data c = some c') : s.placeInto r rest c k =
      ⟨{ s with
          slots := s.slots.set k ((s.slot k).placed (placementAt (s.aperture r.aperture).fields r c))
          intake := r.touch k :: rest
          scatter := ⟨.placing, some c'⟩ },
        [⟨.full, if ((s.slot k).placed (placementAt (s.aperture r.aperture).fields r c)).coverage = BitVec.allOnes 512
          then [k] else []⟩], false⟩ := by
  simp only [State.placeInto, hnext]
  rfl

/-! ### What a placement closes (R84, R86) -/

theorem reasonFor_full (k j : SlotIdx) : reasonFor [⟨.full, [k]⟩] j = if j = k then some .full else none := by
  by_cases h : j = k <;> simp [reasonFor, reasonOrder, namedFor, h]

theorem reasonFor_evict (k j : SlotIdx) : reasonFor [⟨.evict, [k]⟩] j = if j = k then some .evict else none := by
  by_cases h : j = k <;> simp [reasonFor, reasonOrder, namedFor, h]

theorem State.closeFor_full_nil (s : State) : s.closeFor [⟨.full, []⟩] = s :=
  s.closeFor_of_none _ fun k _ => reasonFor_full_nil k

theorem State.closeFor_nil (s : State) : s.closeFor [] = s := s.closeFor_of_none _ fun k _ => reasonFor_nil k

/-- A slot closes once. -/
theorem State.closeSlot_closeSlot (s : State) (k : SlotIdx) (r : FlushReason) :
    (s.closeSlot k r).closeSlot k r = s.closeSlot k r := by
  refine (s.closeSlot k r).closeSlot_of_ne k r ?_
  by_cases h : (s.slot k).state = .opened
  · rw [s.closeSlot_slot k r h]
    exact fun hopen => SlotState.flushing_ne_opened (Slot.closed_flushing _ _ _) hopen
  · rwa [s.closeSlot_of_ne k r h]

theorem State.foldl_closeSlot_same (l : List (SlotIdx × FlushReason)) (s : State) (k : SlotIdx) (r : FlushReason)
    (h : ∀ c ∈ l, c = (k, r)) : l.foldl (fun t c => t.closeSlot c.1 c.2) (s.closeSlot k r) = s.closeSlot k r := by
  induction l with
  | nil => rfl
  | cons c l ih =>
    obtain rfl := h c (List.mem_cons_self ..)
    rw [List.foldl_cons, State.closeSlot_closeSlot, ih fun d hd => h d (List.mem_cons_of_mem _ hd)]

/-- Evicting the oldest OPEN slot closes that slot (R86). -/
theorem State.closeFor_evict (s : State) (k : SlotIdx) (more : List SlotIdx) (h : s.openOrder = k :: more) :
    s.closeFor [⟨.evict, [k]⟩] = s.closeSlot k .evict := by
  have hfirst : closings [⟨.evict, [k]⟩] (k :: more) = (k, .evict) :: closings [⟨.evict, [k]⟩] more := by
    rw [closings, List.filterMap_cons, reasonFor_evict, if_pos rfl]
    rfl
  rw [State.closeFor, h, hfirst, List.foldl_cons]
  refine State.foldl_closeSlot_same _ s k .evict fun c hc => ?_
  simp only [closings, List.mem_filterMap, reasonFor_evict, Option.map_eq_some_iff] at hc
  obtain ⟨j, -, reason, hreason, rfl⟩ := hc
  split at hreason
  · rename_i hj
    rw [hj, ← Option.some.inj hreason]
  · cases hreason

/-- A wholly covered slot has every byte in its mask and none to merge (R89). -/
theorem Slot.closed_of_full (x : Slot) (reason : FlushReason) (marked : Bool) (h : x.coverage = BitVec.allOnes 512) :
    (x.closed reason marked).state = .writing ∧ (x.closed reason marked).mask = BitVec.allOnes 64 := by
  have hbit : ∀ j < 64, ∀ q < 8, x.coverage.getLsbD (8 * j + q) = true := fun j hj q hq => by
    rw [h, BitVec.getLsbD_allOnes]
    exact decide_eq_true (by omega)
  have hwhole : wholeBytes x.coverage = BitVec.allOnes 64 := BitVec.eq_of_getLsbD_eq fun j hj => by
    rw [(wholeBytes_getLsbD _ j hj).mpr (hbit j hj), BitVec.getLsbD_allOnes, decide_eq_true hj]
  have hpart : partBytes x.coverage = 0#64 := BitVec.eq_of_getLsbD_eq fun j hj => by
    rw [BitVec.getLsbD_zero, Bool.eq_false_iff]
    intro htrue
    obtain ⟨-, q, hq, hoff⟩ := (partBytes_getLsbD _ j hj).mp htrue
    rw [hbit j hj q hq] at hoff
    cases hoff
  constructor
  · show (if partBytes x.coverage = 0#64 then SlotState.writing else .merging) = _
    rw [if_pos hpart]
  · show wholeBytes x.coverage ||| partBytes x.coverage = _
    rw [hwhole, hpart, BitVec.or_zero]

/-- Of a list without repetition, the elements equal to a member are that member alone. -/
theorem filter_eq_singleton {l : List SlotIdx} (hl : l.Nodup) {k : SlotIdx} (hk : k ∈ l) (named : SlotIdx → Bool)
    (hnamed : ∀ j, named j = true ↔ j = k) : l.filter named = [k] := by
  have heq : l.filter named = l.filter (· == k) := List.filter_congr fun j _ => by
    rw [Bool.eq_iff_iff, hnamed, beq_iff_eq]
  rw [heq, List.filter_beq, List.count_eq_one_of_mem hl hk]
  rfl

/-- A slot that has become full closes, and no other (R84). -/
theorem State.SlotLaw.closeFor_full {s : State} (h : s.SlotLaw) (k : SlotIdx) (hopen : (s.slot k).state = .opened)
    (hfull : (s.slot k).coverage = BitVec.allOnes 512) :
    let t := s.closeFor [⟨.full, [k]⟩]
    (t.slot k).state = .writing ∧ (t.slot k).reason = .full ∧ (t.slot k).mask = BitVec.allOnes 64 ∧
      (t.slot k).request = .ready ∧ k ∉ t.openOrder ∧ t.flushOrder = s.flushOrder ++ [k] ∧
      (∀ j, j ≠ k → t.slot j = s.slot j) ∧ t.scatter = s.scatter ∧
      t.intake.map (·.position) = s.intake.map (·.position) := by
  intro t
  have hk := (h.openList k).mpr hopen
  have hreason := reasonFor_full k k
  rw [if_pos rfl] at hreason
  obtain ⟨hslot, -, hout⟩ := h.closes _ k .full hk hreason
  obtain ⟨-, hexact⟩ := s.closeFor_exact [⟨.full, [k]⟩] h
  obtain ⟨hstate, hmask⟩ := (s.slot k).closed_of_full .full (s.fenceCatches k) hfull
  have hflush : t.flushOrder = s.flushOrder ++ [k] := by
    show (s.closeFor _).flushOrder = _
    rw [hexact]
    refine congrArg (s.flushOrder ++ ·) (filter_eq_singleton h.openOnce hk _ fun j => ?_)
    rw [← reasonFor_isSome, reasonFor_full]
    split <;> simp [*]
  have hframe : t.scatter = s.scatter ∧ t.intake.map (·.position) = s.intake.map (·.position) := by
    show (s.closeFor _).scatter = _ ∧ (s.closeFor _).intake.map _ = _
    rw [hexact]
    simp
  refine ⟨by rw [hslot, hstate], by rw [hslot]; rfl, by rw [hslot, hmask], by rw [hslot]; rfl, hout, hflush,
    fun j hj => s.closeFor_slot_of_not_named _ j (.inr (by rw [reasonFor_full, if_neg hj])), hframe⟩

/-! ### The statements -/

/-- Settles O28: the cursor's order, the placement's bits, and the slot they go to. -/
theorem placementFillsASlot : Obligations.PlacementFillsASlot := by
  refine ⟨?_, ?_, fun x p q hq => ⟨x.placed_coverage_getLsbD p q hq, x.placed_data_getLsbD p q hq⟩, ?_, ?_⟩
  · intro f data hvalid enabled perByte
    have off : ∀ m, ¬ enabled m → ∀ d, data[m]? = some d → d.enabled = false := fun m hm d hd =>
      Bool.eq_false_of_not_eq_true fun hon => hm ⟨d, hd, hon⟩
    refine ⟨fun j ⟨b, hb, hon⟩ hfirst => firstCursor_eq_some data j b hb hon fun m hm => off m (hfirst m hm),
      fun c => ⟨nextCursor_in_byte f data c, fun hlast => ⟨fun j hj ⟨b, hb, hon⟩ hfirst => ?_, fun hnone => ?_⟩⟩⟩
    · rw [nextCursor_next_byte f data c hlast, nextEnabled_eq_some data (c.byte + 1) j b hj hb hon
        fun m hm hcm => off m (hfirst m hm hcm)]
      rfl
    · rw [nextCursor_next_byte f data c hlast, nextEnabled_eq_none data (c.byte + 1) fun m hm => off m (hnone m hm)]
      rfl
  · intro f r c d hvalid hlow hview hd p bits hbyte
    exact ⟨rfl, fun m hm => (f.sound_of_valid hvalid).placementAt_bits r c d hd hbyte m hm⟩
  · intro s r rest c c' k hscatter hintake hnext p x
    refine ⟨fun hk hpartial => ?_, fun hopened hmerging hfree hlow hpartial => ?_⟩
    · rw [State.exec_placement hscatter
        ((State.scatterStep_opened hscatter hintake hk).trans (s.placeInto_more r rest c c' k hnext)), if_neg hpartial]
      exact congrArg _ (State.closeFor_full_nil _)
    · have hfirst := (s.firstFreeSlot_eq_some k).mpr ⟨hfree, hlow⟩
      have hslot : (s.openSlot k p.line r.aperture).slot k = x := State.slot_setSlot_self s k _
      have hstep := (State.scatterStep_free hscatter hintake hopened hmerging hfirst).trans
        ((s.openSlot k p.line r.aperture).placeInto_more r rest c c' k hnext)
      rw [show (s.openSlot k p.line r.aperture).aperture r.aperture = s.aperture r.aperture from rfl, hslot,
        if_neg hpartial] at hstep
      rw [State.exec_placement hscatter hstep]
      refine congrArg _ ((State.closeFor_full_nil _).trans ?_)
      simp only [State.openSlot, State.setSlot, Vector.set_set]
      rfl
  · intro s r rest c c' k hlaw hscatter hintake hnext p hk hfull
    obtain ⟨hstate, -⟩ := s.slotWith_eq_some .opened p.line k hk
    have hplaced := hlaw.placed r rest k p hintake hstate
    have hslot : (s.setSlot k ((s.slot k).placed p)).slot k = (s.slot k).placed p := State.slot_setSlot_self s k _
    obtain ⟨touched, htouched⟩ := r.touch_eq k
    have hclosed := State.SlotLaw.closeFor_full (s := { s with
        slots := s.slots.set k ((s.slot k).placed p), intake := r.touch k :: rest, scatter := ⟨.placing, some c'⟩ })
      (hplaced.same rfl rfl rfl rfl (State.slotTags_of_tags rfl _)) k ((congrArg Slot.state hslot).trans hstate)
      ((congrArg Slot.coverage hslot).trans hfull)
    obtain ⟨hwriting, hreason, hmask, hrequest, hout, hflush, hothers, hengine, hpositions⟩ := hclosed
    refine ⟨_, ?_, hwriting, hreason, hmask, hrequest, hout, hflush,
      fun j hj => (hothers j hj).trans (State.slot_setSlot_of_ne s k j _ (Ne.symm hj)), hengine, hpositions.trans ?_⟩
    · rw [State.exec_placement hscatter
        ((State.scatterStep_opened hscatter hintake hk).trans (s.placeInto_more r rest c c' k hnext)), if_pos hfull]
      rfl
    · rw [hintake, htouched]
      rfl

/-- Settles O29: the engine waits, and in WAIT_SLOT evicts the oldest OPEN slot. -/
theorem placementWaitsForASlot : Obligations.PlacementWaitsForASlot := by
  intro s r rest c hscatter hintake line hopened
  refine ⟨fun k hmerging => ?_, fun hmerging hnone => ?_⟩
  · rw [State.exec_placement hscatter (State.scatterStep_waitMerge hscatter hintake hopened hmerging)]
    exact congrArg _ (State.closeFor_nil _)
  · have hstep := State.scatterStep_waitSlot hscatter hintake hopened hmerging (s.firstFreeSlot_eq_none.mpr hnone)
    rw [State.exec_placement hscatter hstep]
    refine ⟨fun hempty => ?_, fun k more horder => ?_⟩
    · rw [hempty]
      exact congrArg _ (State.closeFor_of_none _ _ fun k hk => absurd hk List.not_mem_nil)
    · rw [horder]
      exact congrArg _ (State.closeFor_evict _ k more rfl)

end Sys2Proof.Machine
end

section
/-! SUPPORT. The last placement of a record (R18, R63, R88, R98), in the words of the statement. -/

namespace Sys2Proof.Machine

/-! ### What the end of an event keeps of a slot (R89) -/

/-- The end of an event keeps a slot's line, contents, aperture and opening, frees none and clears no mark. -/
theorem State.SlotLaw.settle_slot {s : State} (h : s.SlotLaw) (causes : List Cause) (k : SlotIdx) :
    let x := (s.settle causes).slot k
    x.coverage = (s.slot k).coverage ∧ x.data = (s.slot k).data ∧ x.line = (s.slot k).line ∧
      x.aperture = (s.slot k).aperture ∧ x.openTime = (s.slot k).openTime ∧
      ((s.slot k).state ≠ .free → x.state ≠ .free) ∧ ((s.slot k).mark = true → x.mark = true) := by
  intro x
  obtain ⟨hslots, -⟩ := s.settle_fields causes
  have hx : x = (s.closeFor (s.endCauses causes)).slot k := State.slot_congr _ _ hslots k
  by_cases hopen : k ∈ s.openOrder
  · cases hr : reasonFor (s.endCauses causes) k with
    | none =>
      rw [hx, s.closeFor_slot_of_not_named _ k (.inr hr)]
      exact ⟨rfl, rfl, rfl, rfl, rfl, id, id⟩
    | some r =>
      obtain ⟨hclosed, -, -⟩ := h.closes _ k r hopen hr
      rw [hx, hclosed]
      refine ⟨rfl, rfl, rfl, rfl, rfl, fun _ hfree => ?_, fun hmark => ?_⟩
      · rcases (s.slot k).closed_flushing r (s.fenceCatches k) with hst | hst <;> rw [hfree] at hst <;> cases hst
      · show ((s.slot k).mark || _) = true
        rw [hmark, Bool.true_or]
  · rw [hx, s.closeFor_slot_of_not_named _ k (.inl hopen)]
    exact ⟨rfl, rfl, rfl, rfl, rfl, id, id⟩

/-- A slot that the event's own causes name begins its flush, with the first reason that names it (R87, R88). -/
theorem State.SlotLaw.settle_named {s : State} (h : s.SlotLaw) (causes : List Cause) (k : SlotIdx)
    (hopen : (s.slot k).state = .opened) {c : Cause} (hc : c ∈ causes) (hk : k ∈ c.slots) (hreason : c.reason ≠ .none) :
    ∃ r, reasonFor (s.endCauses causes) k = some r ∧ ((s.settle causes).slot k).state.flushing ∧
      ((s.settle causes).slot k).reason = r := by
  have hsome : (reasonFor (s.endCauses causes) k).isSome = true := by
    rw [reasonFor_isSome, List.any_eq_true]
    exact ⟨c, List.mem_append_left _ hc, by simp [hreason, hk]⟩
  obtain ⟨r, hr⟩ := Option.isSome_iff_exists.mp hsome
  obtain ⟨hflushing, hrecorded⟩ := h.settle_flushing causes k (by rw [hopen]; simp) hr
  exact ⟨r, hr, hflushing, hrecorded hopen⟩

/-! ### The reasons of a record's departure (R88) -/

/-- A slot that RETIRE names closes for RETIRE or for one of the two reasons before it. -/
theorem reasonFor_retire (causes : List Cause) (k : SlotIdx) (r : FlushReason) (h : reasonFor causes k = some r)
    (hretire : ∃ c ∈ causes, c.reason = .retire ∧ k ∈ c.slots) : r ∈ [FlushReason.full, .fence, .retire] := by
  obtain ⟨n, hn, -, hfirst⟩ := reasonFor_some causes k r h
  have hle : n ≤ 2 := by
    by_contra hgt
    exact hfirst 2 (by omega) .retire rfl hretire
  match n, hle with
  | 0, _ =>
    obtain rfl := Option.some.inj hn
    decide
  | 1, _ =>
    obtain rfl := Option.some.inj hn
    decide
  | 2, _ =>
    obtain rfl := Option.some.inj hn
    decide

/-- Without a FULL and a FENCE cause that names it, the reason is RETIRE. -/
theorem State.reasonFor_departure (s : State) (retired : List SlotIdx) (k : SlotIdx) (h : k ∈ retired) :
    reasonFor (s.endCauses [⟨.full, []⟩, ⟨.fence, []⟩, ⟨.retire, retired⟩]) k = some .retire := by
  simp [State.endCauses, reasonFor, reasonOrder, namedFor, h]

/-! ### The record leaves (R18, R63, R98) -/

/-- The fence-marked slots of a record's departure (R98). -/
def State.departureMarks (s : State) (r : IntakeRecord) : List SlotIdx :=
  if s.fence.waitsFor r then r.touched else []

theorem Fence.waitsFor_iff (f : Fence) (r : IntakeRecord) :
    f.waitsFor r = true ↔ f.state = .pending ∧ ∃ ps, f.prior = some ps ∧ ps.holds r = true := by
  unfold Fence.waitsFor
  cases f.prior <;> simp

/-- The causes of the last placement into slot `k`, in the state `u` that the placement leaves. -/
def State.departureCauses (u : State) (r : IntakeRecord) (k : SlotIdx) : List Cause :=
  [⟨.full, if (u.slot k).coverage = BitVec.allOnes 512 then [k] else []⟩, ⟨.fence, u.departureMarks r⟩,
    ⟨.retire, u.drainDemand r⟩]

/-- The last placement of a record: the element is placed, and the record leaves. -/
theorem State.placeInto_last (s : State) (r : IntakeRecord) (rest : List IntakeRecord) (c : Cursor) (k : SlotIdx)
    (hnext : nextCursor (s.aperture r.aperture).fields r.data c = none) :
    let u := s.setSlot k ((s.slot k).placed (placementAt (s.aperture r.aperture).fields r c))
    s.placeInto r rest c k =
      ⟨(u.recordLeaves (r.touch k) rest).1, u.departureCauses (r.touch k) k, true⟩ := by
  intro u
  have hslot : u.slot k = (s.slot k).placed (placementAt (s.aperture r.aperture).fields r c) :=
    State.slot_setSlot_self s k _
  rw [State.departureCauses, hslot]
  simp only [State.placeInto, hnext]
  rfl

theorem IntakeRecord.mem_touch (r : IntakeRecord) (k j : SlotIdx) :
    j ∈ (r.touch k).touched ↔ j = k ∨ j ∈ r.touched := by
  unfold IntakeRecord.touch
  split
  · rename_i h
    have hk : k ∈ r.touched := by simpa using h
    refine ⟨.inr, ?_⟩
    rintro (rfl | hj)
    · exact hk
    · exact hj
  · rw [List.mem_append, List.mem_singleton, or_comm]

/-- What the last placement into the OPEN slot `k` leaves. -/
structure State.Departed (s t : State) (r : IntakeRecord) (rest : List IntakeRecord) (p : Placement) (k : SlotIdx) :
    Prop where
  positions : t.intake.map (·.position) = rest.map (·.position)
  coverage : (t.slot k).coverage = ((s.slot k).placed p).coverage
  data : (t.slot k).data = ((s.slot k).placed p).data
  line : (t.slot k).line = (s.slot k).line
  aperture : (t.slot k).aperture = (s.slot k).aperture
  openTime : (t.slot k).openTime = (s.slot k).openTime
  held : (t.slot k).state ≠ .free
  idles : rest = [] → t.scatter = ⟨.idle, none⟩
  goesOn : ∀ n more, rest = n :: more → t.scatter = ⟨.placing, firstCursor n.data⟩ ∧
    ∃ m, t.intake.head? = some m ∧ m.state = .scattering
  fenced : ∀ ps, s.fence.state = .pending → s.fence.prior = some ps → ps.holds r = true →
    ∀ j, j = k ∨ j ∈ r.touched → (t.slot j).mark = true ∧ (t.slot j).state.flushing
  retired : ∀ ps, (s.aperture r.aperture).state = .draining → (s.aperture r.aperture).drain = some ps →
    ps.holds r = true → ∀ j, (s.slot j).state = .opened → (s.slot j).aperture = r.aperture →
      (t.slot j).state.flushing ∧ (t.slot j).reason ∈ [FlushReason.full, .fence, .retire] ∧
      (s.fence.state ≠ .pending → ((s.slot k).placed p).coverage ≠ BitVec.allOnes 512 → (t.slot j).reason = .retire)
  events : t.events = s.events
  posted : t.posted = s.posted
  tags : t.tags = s.tags
  acceptCount : t.acceptCount = s.acceptCount

/-- A record's place in a prior set does not depend on its touched-slot list. -/
theorem Fence.waitsFor_touch (f : Fence) (r : IntakeRecord) (k : SlotIdx) : f.waitsFor (r.touch k) = f.waitsFor r := by
  obtain ⟨touched, htouched⟩ := r.touch_eq k
  rw [htouched]
  rfl

theorem State.departureMarks_touch (u : State) (r : IntakeRecord) (k j : SlotIdx) :
    j ∈ u.departureMarks (r.touch k) ↔ u.fence.waitsFor r = true ∧ (j = k ∨ j ∈ r.touched) := by
  rw [State.departureMarks, Fence.waitsFor_touch]
  split
  · rename_i h
    simp only [r.mem_touch, h, true_and]
  · rename_i h
    simp [h]

theorem State.mem_drainDemand (u : State) (r : IntakeRecord) (k j : SlotIdx) (ps : PriorSet)
    (hstate : (u.aperture r.aperture).state = .draining) (hdrain : (u.aperture r.aperture).drain = some ps)
    (hholds : ps.holds r = true) (hj : j ∈ u.openOrder) (haperture : (u.slot j).aperture = r.aperture) :
    j ∈ u.drainDemand (r.touch k) := by
  obtain ⟨touched, htouched⟩ := r.touch_eq k
  rw [htouched]
  have hdemand : u.drainDemand { r with touched := touched } = u.openSlotsOf r.aperture := by
    simp only [State.drainDemand, hdrain]
    exact if_pos ⟨hstate, hholds⟩
  rw [hdemand, State.openSlotsOf, List.mem_filter]
  exact ⟨hj, by simpa using haperture⟩

/-- A slot after the record has left: marked if a pending fence waits for the record, and otherwise as it was. -/
theorem State.recordLeaves_slot (u : State) (r : IntakeRecord) (rest : List IntakeRecord) (j : SlotIdx) :
    (u.recordLeaves r rest).1.slot j =
      if j ∈ u.departureMarks r then { u.slot j with mark := true } else u.slot j := by
  obtain ⟨records, engine, hleft, -⟩ := u.recordLeaves_exact r rest
  rw [hleft]
  exact State.markSlots_slot _ _ j

theorem State.recordLeaves_slot_marked (u : State) (r : IntakeRecord) (rest : List IntakeRecord) (j : SlotIdx) :
    ∃ marked, (u.recordLeaves r rest).1.slot j = { u.slot j with mark := marked } := by
  rw [State.recordLeaves_slot]
  split
  · exact ⟨true, rfl⟩
  · exact ⟨(u.slot j).mark, rfl⟩

theorem State.recordLeaves_slot_state (u : State) (r : IntakeRecord) (rest : List IntakeRecord) (j : SlotIdx) :
    ((u.recordLeaves r rest).1.slot j).state = (u.slot j).state := by
  obtain ⟨marked, hmarked⟩ := u.recordLeaves_slot_marked r rest j
  rw [hmarked]

section Departure

variable {u : State} {r : IntakeRecord} {rest : List IntakeRecord} {k : SlotIdx}
  (hplaced : State.SlotLaw { u with intake := r.touch k :: rest })
  (hlaw : (u.recordLeaves (r.touch k) rest).1.SlotLaw)

/-- The state at the end of the event in which record `r` leaves after its last placement into slot `k`. -/
def State.departedFrom (u : State) (r : IntakeRecord) (rest : List IntakeRecord) (k : SlotIdx) : State :=
  (u.recordLeaves (r.touch k) rest).1.settle (u.departureCauses (r.touch k) k)

/-- The intake and the engine after a record has left (R63). -/
theorem State.departedFrom_intake (u : State) (r : IntakeRecord) (rest : List IntakeRecord) (k : SlotIdx) :
    (u.departedFrom r rest k).intake.map (·.position) = rest.map (·.position) ∧
    (rest = [] → (u.departedFrom r rest k).scatter = ⟨.idle, none⟩) ∧
    ∀ n more, rest = n :: more → (u.departedFrom r rest k).scatter = ⟨.placing, firstCursor n.data⟩ ∧
      ∃ m, (u.departedFrom r rest k).intake.head? = some m ∧ m.state = .scattering := by
  obtain ⟨records, engine, hleft, hpositions, hidle, hgoes⟩ := u.recordLeaves_exact (r.touch k) rest
  obtain ⟨slots, hmarked⟩ := State.markSlots_frame
    (if u.fence.waitsFor (r.touch k) then (r.touch k).touched else []) { u with intake := records, scatter := engine }
  rw [hmarked] at hleft
  obtain ⟨-, -, -, -, -, -, -, hscatter, -⟩ :=
    (u.recordLeaves (r.touch k) rest).1.settle_keeps (u.departureCauses (r.touch k) k)
  have hscatter' : (u.departedFrom r rest k).scatter = engine := hscatter.trans (by rw [hleft])
  refine ⟨?_, fun hrest => hscatter'.trans (hidle hrest), fun n more hrest => ?_⟩
  · rw [State.departedFrom, State.settle_positions, hleft]
    exact hpositions
  · obtain ⟨hengine, hrecords⟩ := hgoes n more hrest
    obtain ⟨-, -, -, hintake, -⟩ :=
      (u.recordLeaves (r.touch k) rest).1.settle_fields (u.departureCauses (r.touch k) k)
    obtain ⟨_, _, _, touched, hclosed⟩ := State.closeFor_frame (u.recordLeaves (r.touch k) rest).1
      ((u.recordLeaves (r.touch k) rest).1.endCauses (u.departureCauses (r.touch k) k))
    refine ⟨hscatter'.trans hengine, ?_⟩
    rw [State.departedFrom, hintake, hclosed, hleft, hrecords]
    exact ⟨_, rfl, rfl⟩

theorem State.departedFrom_keeps (u : State) (r : IntakeRecord) (rest : List IntakeRecord) (k : SlotIdx) :
    (u.departedFrom r rest k).events = u.events ∧ (u.departedFrom r rest k).posted = u.posted ∧
      (u.departedFrom r rest k).tags = u.tags ∧ (u.departedFrom r rest k).acceptCount = u.acceptCount := by
  obtain ⟨_, _, _, hleft⟩ := u.recordLeaves_frame (r.touch k) rest
  obtain ⟨-, -, -, -, -, -, haccept, -, hposted, htags, -, -, hevents, -⟩ :=
    (u.recordLeaves (r.touch k) rest).1.settle_keeps (u.departureCauses (r.touch k) k)
  refine ⟨hevents.trans ?_, hposted.trans ?_, htags.trans ?_, haccept.trans ?_⟩ <;> rw [hleft]

include hlaw in
/-- A slot at the end of the event (R89). -/
theorem State.departedFrom_slot (j : SlotIdx) :
    let x := (u.departedFrom r rest k).slot j
    x.coverage = (u.slot j).coverage ∧ x.data = (u.slot j).data ∧ x.line = (u.slot j).line ∧
      x.aperture = (u.slot j).aperture ∧ x.openTime = (u.slot j).openTime ∧
      ((u.slot j).state ≠ .free → x.state ≠ .free) := by
  obtain ⟨hcoverage, hdata, hline, haperture, htime, hheld, -⟩ := hlaw.settle_slot (u.departureCauses (r.touch k) k) j
  obtain ⟨marked, hmarked⟩ := u.recordLeaves_slot_marked (r.touch k) rest j
  rw [hmarked] at hcoverage hdata hline haperture htime hheld
  exact ⟨hcoverage, hdata, hline, haperture, htime, hheld⟩

include hplaced hlaw

/-- The slots that a record touched are marked and closed for a fence that waits for it (R98). -/
theorem State.departedFrom_fenced (hwaits : u.fence.waitsFor r = true) (j : SlotIdx) (hj : j = k ∨ j ∈ r.touched) :
    ((u.departedFrom r rest k).slot j).mark = true ∧ ((u.departedFrom r rest k).slot j).state.flushing := by
  have hmem : j ∈ u.departureMarks (r.touch k) := (u.departureMarks_touch r k j).mpr ⟨hwaits, hj⟩
  obtain ⟨-, htouched⟩ := hplaced.touched (r.touch k) (List.mem_cons_self ..)
  have hopen : (u.slot j).state = .opened := htouched j ((r.mem_touch k j).mpr hj)
  obtain ⟨_, -, hflushing, -⟩ := hlaw.settle_named (u.departureCauses (r.touch k) k) j
    ((u.recordLeaves_slot_state _ rest j).trans hopen) (c := ⟨.fence, u.departureMarks (r.touch k)⟩)
    (by simp [State.departureCauses]) hmem (by simp)
  obtain ⟨-, -, -, -, -, -, hmark⟩ := hlaw.settle_slot (u.departureCauses (r.touch k) k) j
  exact ⟨hmark (by rw [State.recordLeaves_slot, if_pos hmem]), hflushing⟩

/-- The OPEN slots of an aperture whose drain waits for the record are closed (R18, R88). -/
theorem State.departedFrom_retired (ps : PriorSet) (hstate : (u.aperture r.aperture).state = .draining)
    (hdrain : (u.aperture r.aperture).drain = some ps) (hholds : ps.holds r = true) (j : SlotIdx)
    (hopen : (u.slot j).state = .opened) (haperture : (u.slot j).aperture = r.aperture) :
    ((u.departedFrom r rest k).slot j).state.flushing ∧
      ((u.departedFrom r rest k).slot j).reason ∈ [FlushReason.full, .fence, .retire] ∧
      (u.fence.state ≠ .pending → (u.slot k).coverage ≠ BitVec.allOnes 512 →
        ((u.departedFrom r rest k).slot j).reason = .retire) := by
  have hmem : j ∈ u.drainDemand (r.touch k) :=
    u.mem_drainDemand r k j ps hstate hdrain hholds ((hplaced.openList j).mpr hopen) haperture
  have hcause : (⟨.retire, u.drainDemand (r.touch k)⟩ : Cause) ∈ u.departureCauses (r.touch k) k := by
    simp [State.departureCauses]
  obtain ⟨reason, hreason, hflushing, hrecorded⟩ := hlaw.settle_named (u.departureCauses (r.touch k) k) j
    ((u.recordLeaves_slot_state _ rest j).trans hopen) hcause hmem (by simp)
  refine ⟨hflushing, ?_, fun hfence hpartial => ?_⟩
  · show (((u.recordLeaves (r.touch k) rest).1.settle (u.departureCauses (r.touch k) k)).slot j).reason ∈ _
    rw [hrecorded]
    exact reasonFor_retire _ j reason hreason ⟨_, List.mem_append_left _ hcause, rfl, hmem⟩
  · have hnone : u.departureMarks (r.touch k) = [] :=
      if_neg fun hwaits => hfence ((u.fence.waitsFor_iff _).mp hwaits).1
    have hcauses : u.departureCauses (r.touch k) k =
        [⟨.full, []⟩, ⟨.fence, []⟩, ⟨.retire, u.drainDemand (r.touch k)⟩] := by
      rw [State.departureCauses, hnone, if_neg hpartial]
    rw [hcauses, State.reasonFor_departure _ _ j hmem] at hreason
    exact hrecorded.trans (Option.some.inj hreason).symm

end Departure

/-- The end of the last placement's event (R18, R63, R98). -/
theorem State.SlotLaw.departs {s : State} (h : s.SlotLaw) (r : IntakeRecord) (rest : List IntakeRecord) (c : Cursor)
    (k : SlotIdx) (hintake : s.intake = r :: rest) (hopen : (s.slot k).state = .opened)
    (hnext : nextCursor (s.aperture r.aperture).fields r.data c = none) :
    s.Departed ((s.placeInto r rest c k).state.settle (s.placeInto r rest c k).causes) r rest
      (placementAt (s.aperture r.aperture).fields r c) k := by
  have hlaw := h.placeInto r rest c k hintake hopen
  have hplaced := h.placed r rest k (placementAt (s.aperture r.aperture).fields r c) hintake hopen
  rw [s.placeInto_last r rest c k hnext] at hlaw ⊢
  generalize placementAt (s.aperture r.aperture).fields r c = p at hplaced hlaw ⊢
  have hslot : (s.setSlot k ((s.slot k).placed p)).slot k = (s.slot k).placed p := State.slot_setSlot_self s k _
  have hothers : ∀ j, ((s.setSlot k ((s.slot k).placed p)).slot j).state = (s.slot j).state ∧
      ((s.setSlot k ((s.slot k).placed p)).slot j).aperture = (s.slot j).aperture := fun j => by
    rw [State.slot_setSlot]
    split
    · rename_i hkj
      subst hkj
      exact ⟨rfl, rfl⟩
    · exact ⟨rfl, rfl⟩
  obtain ⟨hpositions, hidles, hgoes⟩ := (s.setSlot k ((s.slot k).placed p)).departedFrom_intake r rest k
  obtain ⟨hevents, hposted, htags, haccept⟩ := (s.setSlot k ((s.slot k).placed p)).departedFrom_keeps r rest k
  obtain ⟨hcoverage, hdata, hline, haperture, htime, hheld⟩ := State.departedFrom_slot hlaw k
  rw [hslot] at hcoverage hdata hline haperture htime hheld
  exact {
    positions := hpositions
    coverage := hcoverage
    data := hdata
    line := hline
    aperture := haperture
    openTime := htime
    held := hheld (by
      show (s.slot k).state ≠ .free
      rw [hopen]
      simp)
    idles := hidles
    goesOn := hgoes
    fenced := fun ps hpending hprior hholds j hj => State.departedFrom_fenced hplaced hlaw
      ((Fence.waitsFor_iff _ r).mpr ⟨hpending, ps, hprior, hholds⟩) j hj
    retired := fun ps hstate hdrain hholds j hopened hsame => by
      obtain ⟨hflushing, hreason, hretire⟩ := State.departedFrom_retired hplaced hlaw ps hstate hdrain hholds j
        ((hothers j).1.trans hopened) ((hothers j).2.trans hsame)
      rw [hslot] at hretire
      exact ⟨hflushing, hreason, hretire⟩
    events := hevents
    posted := hposted
    tags := htags
    acceptCount := haccept }

/-- Settles O30: the slot is the line's OPEN one or is opened for it, and the record departs from there. -/
theorem lastPlacementRemovesTheRecord : Obligations.LastPlacementRemovesTheRecord := by
  intro s r rest c k hlaw hscatter hintake hnext p fresh hcases x hopened hfresh
  rcases hcases with hk | hk
  · obtain ⟨hstate, hline⟩ := s.slotWith_eq_some .opened p.line k hk
    obtain rfl := hopened hk
    have hstep := State.scatterStep_opened hscatter hintake hk
    have hd := hlaw.departs r rest c k hintake hstate hnext
    have hexec := State.exec_placement hscatter hstep
    rw [if_pos (by rw [s.placeInto_last r rest c k hnext])] at hexec
    refine ⟨_, hexec, hd.positions, hd.coverage, hd.data, hd.line.trans hline, hd.aperture, hd.openTime, hd.held,
      hd.idles, hd.goesOn, hd.fenced, fun ps hdraining hdrain hholds j hj => ?_, hd.events, hd.posted, hd.tags,
      hd.acceptCount⟩
    refine hd.retired ps hdraining hdrain hholds j ?_ ?_
    · rcases hj with ⟨rfl, -⟩ | ⟨-, hj, -⟩
      · exact hstate
      · exact hj
    · rcases hj with ⟨rfl, hj⟩ | ⟨-, -, hj⟩ <;> exact hj
  · obtain ⟨hnone, hmerging, hfree, hlow⟩ := hk
    have hx := hfresh ⟨hnone, hmerging, hfree, hlow⟩
    have hlaw' := hlaw.openSlot k p.line r.aperture hfree hnone hmerging
    have hslot : (s.openSlot k p.line r.aperture).slot k = x := (State.slot_setSlot_self s k _).trans hx.symm
    have hothers : ∀ j, j ≠ k → (s.openSlot k p.line r.aperture).slot j = s.slot j := fun j hj =>
      State.slot_setSlot_of_ne s k j _ (Ne.symm hj)
    have hstate : ((s.openSlot k p.line r.aperture).slot k).state = .opened := by rw [hslot, hx]
    have hstep := State.scatterStep_free hscatter hintake hnone hmerging ((s.firstFreeSlot_eq_some k).mpr ⟨hfree, hlow⟩)
    have hd := hlaw'.departs r rest c k hintake hstate hnext
    have hexec := State.exec_placement hscatter hstep
    rw [if_pos (by rw [(s.openSlot k p.line r.aperture).placeInto_last r rest c k hnext])] at hexec
    have hcoverage := hd.coverage
    have hdata := hd.data
    have hline := hd.line
    have haperture := hd.aperture
    have htime := hd.openTime
    rw [hslot] at hcoverage hdata hline haperture htime
    refine ⟨_, hexec, hd.positions, hcoverage, hdata, hline.trans (by rw [hx]), haperture, htime, hd.held,
      hd.idles, hd.goesOn, hd.fenced, fun ps hdraining hdrain hholds j hj => ?_, hd.events, hd.posted, hd.tags,
      hd.acceptCount⟩
    have hretired := hd.retired ps hdraining hdrain hholds j
    rw [hslot] at hretired
    rcases hj with ⟨rfl, hj⟩ | ⟨hne, hj, hsame⟩
    · exact hretired hstate (by rw [hslot]; exact hj)
    · exact hretired (by rw [hothers j hne]; exact hj) (by rw [hothers j hne]; exact hsame)

end Sys2Proof.Machine
end
